-- ==== Sys2Proof/Word.lean ====
section
/-! DEFINITION. The word types of the block and its enumerations (00_scope.md R8 to R11). -/

namespace Sys2Proof

/-- A serial byte (20_memory.md R53). -/
abbrev Byte := BitVec 8

/-- A debounce history register: bit 0 the most recent sample (30_encoding.md R77). -/
abbrev Hist := BitVec 16

/-- A logic level: `true` is 1, electrically high, released; `false` is 0, pressed (20_memory.md R51). -/
abbrev Level := Bool

/-- The design variant (00_scope.md R2). -/
inductive Variant where
  | v1
  | v2
deriving DecidableEq, Repr

/-- The Mode register's values (00_scope.md R11, 10_state.md R27). -/
inductive Mode where
  | off
  | on
  | startOnly
deriving DecidableEq, Repr

/-- The ramp direction (00_scope.md R11, 10_state.md R26). -/
inductive Dir where
  | inc
  | dec
deriving DecidableEq, Repr

/-- The result of one debouncer in one tick (00_scope.md R11, 10_state.md R30). -/
inductive Edge where
  | none
  | rising
  | falling
deriving DecidableEq, Repr

/-- The channel number, 1 or 2: of an input pin, of its debouncer, or of a duty register. -/
inductive Chan where
  | one
  | two
deriving DecidableEq, Repr

/-- US-ASCII codes of the characters the spec names (30_encoding.md R76). -/
def chB : Byte := 0x62
def chN : Byte := 0x6E
def chP : Byte := 0x70
def chS : Byte := 0x73

end Sys2Proof
end

