-- ==== Sys2Proof/Config.lean ====
section
/-! DEFINITION. The configuration (00_scope.md R6), the stimuli the outside world can give, and the free values. -/

namespace Sys2Proof

/-- The inputs of one tick: the input ports of 20_memory.md R51 (`rst` is a stimulus of its own). -/
structure Inputs where
  pin1 : Level
  pin2 : Level
  rx : Option Byte
  fatal : Bool
deriving DecidableEq, Repr, Inhabited

/-- What the outside world saw of a tick that a reset cut short (70_reset_and_hazards.md R240): how many bytes
of its `tx` had been handed over, which of its two duty writes had happened, and whether its edge results had
been shown on the observation ports (the spec is silent on the last; log 15). -/
structure Cut where
  txKept : Nat
  write1 : Bool
  write2 : Bool
  edges : Bool
deriving DecidableEq, Repr, Inhabited

/-- What the outside world can do next (20_memory.md R51, 30_encoding.md R82). -/
inductive Stim where
  /-- One tick with these inputs (44_main_loop.md R180, R188). -/
  | tick (i : Inputs)
  /-- The collaborator reports a fatal condition outside a tick: at bring-up (60_exceptions.md R201; log 14). -/
  | fatal
  /-- Reset or power-on between two ticks (70_reset_and_hazards.md R230). -/
  | rst
  /-- Reset inside the tick that has these inputs (70_reset_and_hazards.md R240). -/
  | rstDuring (i : Inputs) (cut : Cut)
deriving DecidableEq, Repr, Inhabited

/-- The parameters of 00_scope.md R6, and the reset values of the debouncers as 10_state.md R36 lets a model
take them. -/
structure Config where
  variant : Variant
  histDepth : Nat
  /-- The width of the ramp value and the duty registers. -/
  valW : Nat
  v1Min : Nat
  v1Max : Nat
  step : Nat
  depth : Nat
  v2Top : Nat
  soBase : Nat
  soDiv : Nat
  onBase : Nat
  onDiv : Nat
  offDuty : Nat
  soDuty1 : Nat
  /-- In milliseconds; no rule depends on it (70_reset_and_hazards.md R239). -/
  tickPeriod : Nat
  /-- Symbols a second; no rule depends on it (70_reset_and_hazards.md R239). -/
  baud : Nat
  tag1 : Byte
  tag2 : Byte
  lineTerm : List Byte
  rampInitV : Nat
  rampInitDir : Dir
  histInit : Hist
  stableInit : Level
deriving DecidableEq, Repr

/-- FREE VALUE: the bytes of `LINE_TERM`, which no source states (30_encoding.md R74; log 5). -/
opaque Config.openLineTerm : List Byte

/-- FREE VALUE: what a register of the given width holds after an exact result that it cannot hold is stored in it
(00_scope.md R9 states none; log 10). -/
opaque Config.freeStored : Nat → Nat → Nat

/-- FREE VALUE: what the k-th read of a duty register that nothing has written gives (10_state.md R28; log 6). -/
opaque Config.freeDuty : Chan → Nat → Nat

/-- FREE VALUE: what a PWM pin shows at its k-th look while the block is halted (60_exceptions.md R203; log 7). -/
opaque Config.freePwm : Chan → Nat → Nat

/-- FREE VALUE: the k-th stimulus that the outside world gives where none has been placed
(44_main_loop.md R188, 20_memory.md R57; log 2). -/
opaque Config.freeStim : Nat → Stim

/-- FREE VALUE: the levels at the input ports before the first tick (44_main_loop.md R188; log 16). -/
opaque Config.resetInputs : Inputs

/-- Variant 1 with the source values of 00_scope.md R6. -/
def Config.v1 : Config where
  variant := .v1
  histDepth := 16
  valW := 8
  v1Min := 0
  v1Max := 255
  step := 1
  depth := 125
  v2Top := 245
  soBase := 125
  soDiv := 2
  onBase := 4
  onDiv := 10
  offDuty := 4
  soDuty1 := 0
  tickPeriod := 10
  baud := 57600
  tag1 := chN
  tag2 := chP
  lineTerm := Config.openLineTerm
  rampInitV := 0
  rampInitDir := .inc
  histInit := 0xFFFF
  stableInit := true

/-- Variant 2 with the source values of 00_scope.md R6 and R75. -/
def Config.v2 : Config :=
  { Config.v1 with variant := .v2, tag2 := chB, rampInitV := 120 }

end Sys2Proof
end

