-- ==== Sys2Proof/Syntax.lean ====
section
/-! DEFINITION. The operations of the block: one constructor for each row of spec/opcode_table.json. -/

namespace Sys2Proof

/-- The operations (opcode_table.json). Only CMD_OTHER carries an operand: the byte its `rx_slot` word holds
(30_encoding.md R72). No operation has an immediate (30_encoding.md R83). -/
inductive Instr where
  /-- 44_main_loop.md R181 -/
  | sample
  /-- 40_debouncer.md R100 -/
  | debUpdate
  /-- 41_command_protocol.md R127 -/
  | rptBtn1
  /-- 41_command_protocol.md R128 -/
  | rptBtn2
  /-- 41_command_protocol.md R120 -/
  | cmdS
  /-- 41_command_protocol.md R121 -/
  | cmdN
  /-- 41_command_protocol.md R122 -/
  | cmdB
  /-- 41_command_protocol.md R124 -/
  | rxNone
  /-- 41_command_protocol.md R123 -/
  | cmdOther (byte : Byte)
  /-- 43_output_mapper.md R160 -/
  | muxV1StartOnly
  /-- 43_output_mapper.md R161 -/
  | muxV1On
  /-- 43_output_mapper.md R162 -/
  | muxV1Off
  /-- 43_output_mapper.md R163 -/
  | muxV2
  /-- 42_brightness_ramp.md R140 -/
  | rampAdvV1
  /-- 42_brightness_ramp.md R141 -/
  | rampAdvV2
  /-- 44_main_loop.md R183 -/
  | sleep
  /-- 60_exceptions.md R201 -/
  | halt
  /-- 44_main_loop.md R180 -/
  | tick
deriving DecidableEq, Repr

end Sys2Proof
end

