-- ==== Sys2Proof/WellFormed.lean ====
section
/-! DEFINITION. Well-formed operations, and where an operation can be selected (30_encoding.md R72, R85). -/

namespace Sys2Proof

/-- The three bytes that select a mode (30_encoding.md R72). -/
def isCommand (b : Byte) : Bool :=
  b == chS || b == chN || b == chB

/-- CMD_OTHER holds one of the 253 other bytes (30_encoding.md R72); no other operation has an operand. -/
def Instr.wf : Instr → Bool
  | .cmdOther b => !isCommand b
  | .sample | .debUpdate | .rptBtn1 | .rptBtn2 | .cmdS | .cmdN | .cmdB | .rxNone | .muxV1StartOnly | .muxV1On
  | .muxV1Off | .muxV2 | .rampAdvV1 | .rampAdvV2 | .sleep | .halt | .tick => true

/-- The variants in which the phases select the operation (30_encoding.md R85). -/
def Instr.inVariant : Instr → Variant → Bool
  | .cmdS, v | .cmdN, v | .cmdB, v | .rxNone, v | .cmdOther _, v | .muxV1StartOnly, v | .muxV1On, v
  | .muxV1Off, v | .rampAdvV1, v => v == .v1
  | .muxV2, v | .rampAdvV2, v => v == .v2
  | .sample, _ | .debUpdate, _ | .rptBtn1, _ | .rptBtn2, _ | .sleep, _ | .halt, _ | .tick, _ => true

/-- The modes in which phase 5 selects the operation (30_encoding.md R85). -/
def Instr.inMode : Instr → Mode → Bool
  | .muxV1StartOnly, m => m == .startOnly
  | .muxV1On, m => m == .on
  | .muxV1Off, m => m == .off
  | .sample, _ | .debUpdate, _ | .rptBtn1, _ | .rptBtn2, _ | .cmdS, _ | .cmdN, _ | .cmdB, _ | .rxNone, _
  | .cmdOther _, _ | .muxV2, _ | .rampAdvV1, _ | .rampAdvV2, _ | .sleep, _ | .halt, _ | .tick, _ => true

end Sys2Proof
end

