-- ==== Sys2Proof/Decode.lean ====
section
/-! DEFINITION. The formats of 30_encoding.md: their decoders, which refuse the reserved words by name, and after
them the encoders. -/

namespace Sys2Proof

/-- An encoded operation, by the format it stands in (30_encoding.md R70, opcode_table.json). -/
inductive Code where
  /-- A `phase3` code (R85). -/
  | phase3 (w : BitVec 3)
  /-- An `rx_slot` word (R71). -/
  | rxSlot (w : BitVec 9)
  /-- The tag that opens a `tx_frame`: the bits under the table's mask (R74; log 21). -/
  | txTag (b : Byte)
  /-- The `fatal` bit that selects HALT (60_exceptions.md R201). -/
  | event (fatal : Bool)
  /-- The seven phase codes of TICK, the first in the low bits (log 4). -/
  | phases (w : BitVec 21)
  /-- Bits that are in no format. -/
  | other (nbits w : Nat)
deriving DecidableEq, Repr

/-- Why a word is refused. -/
inductive CodeError where
  /-- `phase3` code 0b000 (30_encoding.md R85). -/
  | reservedPhase
  /-- Phases 3 and 4: the code alone names no single operation (30_encoding.md R85). -/
  | notOneOperation
  /-- `rx_slot` with v = 0 and a nonzero byte (30_encoding.md R72). -/
  | illegalRxSlot
  /-- Variant 2 decodes no `rx_slot` word (41_command_protocol.md R125). -/
  | notReadInV2
  /-- No tag of this configuration (30_encoding.md R75). -/
  | unknownTag
  /-- A frame whose terminator is not `LINE_TERM` (30_encoding.md R74). -/
  | badTerminator
  /-- `mode2` word 0b11 (30_encoding.md R78). -/
  | reservedMode
  /-- `edge2` word 0b11 (30_encoding.md R80). -/
  | reservedEdge
  /-- `fatal` = 0 selects no operation (60_exceptions.md R201). -/
  | noEvent
  /-- Not the phase codes 1 to 7 in order (44_main_loop.md R182). -/
  | phasesOutOfOrder
  /-- The bits are in no format of 30_encoding.md R70. -/
  | noFormat
deriving DecidableEq, Repr

/-- What selects an operation beside its code (30_encoding.md R85): the variant, the mode, the tags, the edge
results of this tick and its `rx_slot` word. -/
structure Ctx where
  variant : Variant
  mode : Mode
  tag1 : Byte
  tag2 : Byte
  edge1 : Edge
  edge2 : Edge
  rx : BitVec 9
deriving DecidableEq, Repr

/-! ## The receive slot -/

/-- `RxTake()` as an `rx_slot` word (30_encoding.md R71). -/
def encodeRxSlot : Option Byte → BitVec 9
  | none => 0x000
  | some b => 0x100 ||| b.zeroExtend 9

/-- The receive slot that an `rx_slot` word stands for; a word with v = 0 and a nonzero byte is refused
(30_encoding.md R71, R72). -/
def decodeRxSlot (w : BitVec 9) : Option (Option Byte) :=
  if w.getLsbD 8 then some (some (w.setWidth 8))
  else if w = 0 then some none
  else none

/-- The command map: the first row that matches (30_encoding.md R72). -/
def decodeCommand (w : BitVec 9) : Except CodeError Instr :=
  if w &&& 0x1FF = 0x173 then .ok .cmdS
  else if w &&& 0x1FF = 0x16E then .ok .cmdN
  else if w &&& 0x1FF = 0x162 then .ok .cmdB
  else if w &&& 0x100 = 0x000 then (if w = 0 then .ok .rxNone else .error .illegalRxSlot)
  else .ok (.cmdOther (w.setWidth 8))

/-! ## Field formats -/

/-- Format `mode2` (30_encoding.md R78). -/
def encodeMode2 : Mode → BitVec 2
  | .off => 0b00
  | .on => 0b01
  | .startOnly => 0b10

/-- 0b11 is refused (30_encoding.md R78). -/
def decodeMode2 (w : BitVec 2) : Except CodeError Mode :=
  if w = 0b00 then .ok .off else if w = 0b01 then .ok .on else if w = 0b10 then .ok .startOnly
  else .error .reservedMode

/-- Format `dir1` (30_encoding.md R79). -/
def encodeDir1 : Dir → BitVec 1
  | .dec => 0
  | .inc => 1

def decodeDir1 (w : BitVec 1) : Dir :=
  if w = 0 then .dec else .inc

/-- Format `edge2` (30_encoding.md R80). -/
def encodeEdge2 : Edge → BitVec 2
  | .none => 0b00
  | .rising => 0b01
  | .falling => 0b10

/-- 0b11 is refused (30_encoding.md R80). -/
def decodeEdge2 (w : BitVec 2) : Except CodeError Edge :=
  if w = 0b00 then .ok .none else if w = 0b01 then .ok .rising else if w = 0b10 then .ok .falling
  else .error .reservedEdge

/-- Format `hist16`: the sample taken k ticks before the latest is bit k (30_encoding.md R77). -/
def histSample (h : Hist) (k : Nat) : Level :=
  h.getLsbD k

/-! ## Operations -/

/-- The phase codes 1 to 7 in order, the first in the low bits (opcode_table.json row TICK; log 4). -/
def tickPhases : BitVec 21 := 0b111_110_101_100_011_010_001

/-- The MUX operation of phase 5 (30_encoding.md R85). -/
def muxOp : Variant → Mode → Instr
  | .v1, .startOnly => .muxV1StartOnly
  | .v1, .on => .muxV1On
  | .v1, .off => .muxV1Off
  | .v2, _ => .muxV2

/-- The RAMP_ADV operation of phase 6 (30_encoding.md R85). -/
def rampOp : Variant → Instr
  | .v1 => .rampAdvV1
  | .v2 => .rampAdvV2

/-- The one operation that a code stands for, or why there is none (30_encoding.md R72, R75, R85). -/
def decode (x : Ctx) : Code → Except CodeError Instr
  | .phase3 w =>
    if w = 0b001 then .ok .sample
    else if w = 0b010 then .ok .debUpdate
    else if w = 0b101 then .ok (muxOp x.variant x.mode)
    else if w = 0b110 then .ok (rampOp x.variant)
    else if w = 0b111 then .ok .sleep
    else if w = 0b000 then .error .reservedPhase
    else .error .notOneOperation
  | .rxSlot w =>
    if decodeRxSlot w = none then .error .illegalRxSlot
    else
      match x.variant with
      | .v1 => decodeCommand w
      | .v2 => .error .notReadInV2
  | .txTag b => if b = x.tag1 then .ok .rptBtn1 else if b = x.tag2 then .ok .rptBtn2 else .error .unknownTag
  | .event fatal => if fatal then .ok .halt else .error .noEvent
  | .phases w => if w = tickPhases then .ok .tick else .error .phasesOutOfOrder
  | .other _ _ => .error .noFormat

/-- The report operations that the edges of this tick select, input 1 first (30_encoding.md R85,
41_command_protocol.md R129). -/
def reportOps (x : Ctx) : List Instr :=
  (if x.edge1 = .falling then [Instr.rptBtn1] else []) ++ (if x.edge2 = .falling then [Instr.rptBtn2] else [])

/-- Every operation that a code selects, in order: phase 3 selects none, one or both reports; phase 4 selects one
command row in variant 1 and none in variant 2; every other code at most one (30_encoding.md R85). -/
def select (x : Ctx) (c : Code) : Except CodeError (List Instr) :=
  if c = .phase3 0b011 then .ok (reportOps x)
  else if c = .phase3 0b100 then
    match x.variant with
    | .v1 => (decodeCommand x.rx).map ([·])
    | .v2 => .ok []
  else
    match decode x c with
    | .ok i => .ok [i]
    | .error .notReadInV2 => .ok []
    | .error .noEvent => .ok []
    | .error e => .error e

/-! ## Report frames -/

/-- Format `tx_frame` (30_encoding.md R74). -/
def frame (tag : Byte) (term : List Byte) : List Byte :=
  tag :: term

/-- A whole frame of the configuration `c`: its tag and then exactly `LINE_TERM` (30_encoding.md R74, R75). -/
def decodeFrame (c : Config) : List Byte → Except CodeError Instr
  | [] => .error .noFormat
  | tag :: term =>
    if term = c.lineTerm then
      (if tag = c.tag1 then .ok .rptBtn1 else if tag = c.tag2 then .ok .rptBtn2 else .error .unknownTag)
    else .error .badTerminator

/-! ## Test-program notation -/

/-- Format `stim11`: bit 10 is `pin1`, bit 9 is `pin2`, bits 8:0 are the `rx_slot` (30_encoding.md R81). -/
def decodeStim11 (w : BitVec 11) : Option Inputs :=
  (decodeRxSlot (w.setWidth 9)).map fun r =>
    { pin1 := w.getLsbD 10, pin2 := w.getLsbD 9, rx := r, fatal := false }

def encodeStim11 (i : Inputs) : BitVec 11 :=
  (if i.pin1 then 0x400 else 0) ||| (if i.pin2 then 0x200 else 0) ||| (encodeRxSlot i.rx).zeroExtend 11

/-- The start state that a test program names: the fields of 10_state.md R20 with the values it gives; a field not
named (`none`) takes its reset value (30_encoding.md R82). -/
structure Start where
  hist1 : Option Hist := none
  hist2 : Option Hist := none
  stable1 : Option Level := none
  stable2 : Option Level := none
  rampV : Option Nat := none
  rampDir : Option Dir := none
  mode : Option Mode := none
  duty1 : Option Nat := none
  duty2 : Option Nat := none
  halted : Option Bool := none
deriving DecidableEq, Repr

/-- A start state names only fields that exist: `mode` exists in variant 1 alone (10_state.md R20; log 24). -/
def Start.inVariant (st : Start) : Variant → Bool
  | .v1 => true
  | .v2 => st.mode.isNone

/-- One line of a test program after its `start` line (30_encoding.md R82). -/
inductive Line where
  | tick (w : BitVec 11)
  /-- The enclosed lines N times; any lines may be enclosed. -/
  | repeated (n : Nat) (body : List Line)
  | fatal
  | reset
deriving Repr

/-- A test program: its `start` line and the lines after it (30_encoding.md R82). -/
structure Program where
  start : Start := { }
  lines : List Line
deriving Repr

mutual

/-- The stimuli of one line, refused where a word in it is. -/
def Line.stims : Line → Option (List Stim)
  | .tick w => (decodeStim11 w).map fun i => [.tick i]
  | .repeated n body => (linesStims body).map fun xs => (List.replicate n xs).flatten
  | .fatal => some [.fatal]
  | .reset => some [.rst]

/-- The stimuli of lines, one after another. -/
def linesStims : List Line → Option (List Stim)
  | [] => some []
  | l :: ls => l.stims.bind fun xs => (linesStims ls).map (xs ++ ·)

end

/-! ## The words of the opcode table -/

/-- The code whose bits opcode_table.json numbers so (log 4). -/
def tableCode (nbits w : Nat) : Code :=
  if nbits = 1 then .event (w == 1)
  else if nbits ≤ 8 then (if w < 8 then .phase3 (BitVec.ofNat 3 w) else if w < 256 then .txTag (BitVec.ofNat 8 w) else .other nbits w)
  else if nbits ≤ 16 then (if w < 512 then .rxSlot (BitVec.ofNat 9 w) else .other nbits w)
  else if nbits ≤ 24 then (if w < 2097152 then .phases (BitVec.ofNat 21 w) else .other nbits w)
  else .other nbits w

/-- The context right after reset in the default configuration (00_scope.md R2, 10_state.md R35). -/
def resetCtx : Ctx where
  variant := Config.v1.variant
  mode := .startOnly
  tag1 := Config.v1.tag1
  tag2 := Config.v1.tag2
  edge1 := .none
  edge2 := .none
  rx := 0

/-- The operation that the decoder reads right after reset from a word of the opcode table. -/
def decodeTableWord (nbits w : Nat) : Option Instr :=
  match decode resetCtx (tableCode nbits w) with
  | .ok i => some i
  | .error _ => none

/-! ## The encoder -/

/-- The code of an operation (opcode_table.json, 30_encoding.md R72, R75, R85). -/
def encode (x : Ctx) : Instr → Code
  | .sample => .phase3 0b001
  | .debUpdate => .phase3 0b010
  | .rptBtn1 => .txTag x.tag1
  | .rptBtn2 => .txTag x.tag2
  | .cmdS => .rxSlot 0x173
  | .cmdN => .rxSlot 0x16E
  | .cmdB => .rxSlot 0x162
  | .rxNone => .rxSlot 0x000
  | .cmdOther b => .rxSlot (0x100 ||| b.zeroExtend 9)
  | .muxV1StartOnly | .muxV1On | .muxV1Off | .muxV2 => .phase3 0b101
  | .rampAdvV1 | .rampAdvV2 => .phase3 0b110
  | .sleep => .phase3 0b111
  | .halt => .event true
  | .tick => .phases tickPhases

/-- The bytes of a report operation's frame (30_encoding.md R74, R75). -/
def encodeFrame (c : Config) : Instr → Option (List Byte)
  | .rptBtn1 => some (frame c.tag1 c.lineTerm)
  | .rptBtn2 => some (frame c.tag2 c.lineTerm)
  | .sample | .debUpdate | .cmdS | .cmdN | .cmdB | .rxNone | .cmdOther _ | .muxV1StartOnly | .muxV1On | .muxV1Off
  | .muxV2 | .rampAdvV1 | .rampAdvV2 | .sleep | .halt | .tick => none

/-- A code as a number of bits, in whole bytes where the opcode table gives the row bits, and their value. -/
def codeBits : Code → Nat × Nat
  | .phase3 w => (8, w.toNat)
  | .rxSlot w => (16, w.toNat)
  | .txTag b => (8, b.toNat)
  | .event fatal => (1, if fatal then 1 else 0)
  | .phases w => (24, w.toNat)
  | .other n w => (n, w)

end Sys2Proof
end

