-- ==== Sys2Proof/Machine/Register.lean ====
section
/-! DEFINITION. Storing an exact result into a register of `VAL_W` bits: the ramp value and the duty registers. -/

namespace Sys2Proof

/-- The greatest value of a register of `VAL_W` bits (00_scope.md R6). -/
def Config.regMax (c : Config) : Nat :=
  2 ^ c.valW - 1

/-- An exact result stored into such a register: itself where it fits (00_scope.md R9), else a free value of the
register (log 10). -/
def Config.store (c : Config) (n : Nat) : Nat :=
  if n ≤ c.regMax then n else Config.freeStored c.valW n % (c.regMax + 1)

/-- Such a register may hold `v` after `n` is stored: `n` where it fits, and else any value of the register. -/
def Config.holds (c : Config) (n : Nat) (v : Nat) : Prop :=
  (n ≤ c.regMax → v = n) ∧ v ≤ c.regMax

end Sys2Proof
end

