-- ==== Sys2Proof/Machine/State.lean ====
section
/-! DEFINITION. The state of the machine (10_state.md R20), its reset value, and why a step can stop. -/

namespace Sys2Proof.Machine

/-- No operation of the block raises an exception and none stops it with a fault (60_exceptions.md R200): there is
no constructor. The fatal halt is a state, not a fault (R201). -/
inductive Fault
deriving DecidableEq, Repr

/-- Why a step is refused. -/
inductive Refusal where
  /-- Raised by `exec` for an operation that has no meaning yet. Safe. -/
  | notModelled (mnemonic : String)
  /-- Raised by `step` where the configuration breaks 00_scope.md R7, 10_state.md R36 or 41_command_protocol.md
  R133; R7: "A model must refuse any configuration that breaks one". Safe. -/
  | badConfig
  /-- Raised by `step` for a lone word that 30_encoding.md reserves or calls not legal (R72, R78, R80, R85). Safe. -/
  | badCode (e : CodeError)
deriving DecidableEq, Repr

/-- The block state: the record of 10_state.md R20 and nothing else. The ramp value and the duty registers are numbers
of `VAL_W` bits, 8 by default (R25, R28; log 10); a duty register is `none` while it is unwritten (R28). -/
structure Block where
  hist1 : Hist
  hist2 : Hist
  stable1 : Level
  stable2 : Level
  rampV : Nat
  rampDir : Dir
  mode : Mode
  duty1 : Option Nat
  duty2 : Option Nat
  halted : Bool
deriving DecidableEq, Repr

/-- One `PwmWrite` (00_scope.md R10): one atomic write of one duty register (20_memory.md R55). -/
structure PwmWrite where
  channel : Chan
  value : Nat
deriving DecidableEq, Repr

/-- What a step takes next: a stimulus of the outside world, or one operation of the opcode table run alone
(the model's own; log 3). -/
inductive Work where
  | stim (x : Stim)
  | op (c : Code)
deriving DecidableEq, Repr

/-- The machine: the configuration, the block state, and what stands at the block's ports and between its phases
(not block state, 10_state.md R30 and R31). -/
structure State where
  /-- 00_scope.md R6; no step changes it. -/
  cfg : Config
  blk : Block
  /-- The input ports of 20_memory.md R51. -/
  inp : Inputs
  /-- The samples p1 and p2 of 44_main_loop.md R181. -/
  samp1 : Level
  samp2 : Level
  /-- The edge results of this tick, also output ports (10_state.md R30). -/
  edge1 : Edge
  edge2 : Edge
  /-- The output port `tx`: the bytes of this tick in order (20_memory.md R52). -/
  tx : List Byte
  /-- The duty writes of this tick in order (20_memory.md R55). -/
  pwm : List PwmWrite
  /-- The model's own: what has been placed to happen next, oldest first (log 2). -/
  pending : List Work
  /-- The model's own: the index of the next free stimulus (log 2). -/
  draws : Nat
deriving DecidableEq, Repr

/-- The reset values of the block state (10_state.md R35). -/
def Block.reset (c : Config) : Block where
  hist1 := c.histInit
  hist2 := c.histInit
  stable1 := c.stableInit
  stable2 := c.stableInit
  rampV := c.store c.rampInitV
  rampDir := c.rampInitDir
  mode := .startOnly
  duty1 := none
  duty2 := none
  halted := false

/-- The machine with configuration `c` right after power-on, nothing placed (70_reset_and_hazards.md R230). -/
def State.resetOf (c : Config) : State where
  cfg := c
  blk := Block.reset c
  inp := Config.resetInputs
  samp1 := true
  samp2 := true
  edge1 := .none
  edge2 := .none
  tx := []
  pwm := []
  pending := []
  draws := 0

/-- The machine right after reset in the default configuration (00_scope.md R2, R6). -/
def State.reset : State :=
  State.resetOf Config.v1

end Sys2Proof.Machine
end

