-- ==== Sys2Proof/Machine/Operands.lean ====
section
/-! DEFINITION. What the operations read: derived parameters, the check of the configuration, the shifted history,
the duty expressions, and the context that selects an operation. -/

namespace Sys2Proof

/-- `V2_LB` and `V2_UB` (42_brightness_ramp.md R142). -/
def Config.v2Lb (c : Config) : Nat :=
  c.v2Top - c.depth

def Config.v2Ub (c : Config) : Nat :=
  c.v2Top

/-- The admitted reset states of a debouncer: (0xFFFF, 1) and (0x0000, 0) (10_state.md R36). -/
def Config.resetConsistent (c : Config) : Bool :=
  (c.histInit == 0xFFFF && c.stableInit) || (c.histInit == 0x0000 && !c.stableInit)

/-- The constraints of 00_scope.md R7, with those of 41_command_protocol.md R133 and 10_state.md R36; no other
configuration is refused (log 10). -/
def Config.wf (c : Config) : Bool :=
  decide (1 ≤ c.step) && decide (c.step ≤ 255) && decide (c.depth ≤ c.v2Top) && decide (c.v2Top ≤ 255)
  && decide (1 ≤ c.soDiv) && decide (1 ≤ c.onDiv) && decide (c.soBase + 255 / c.soDiv ≤ 255)
  && decide (c.onBase + 255 / c.onDiv ≤ 255) && decide (c.offDuty ≤ 255) && decide (c.soDuty1 ≤ 255)
  && decide (c.histDepth = 16) && (c.tag1 != c.tag2) && c.resetConsistent

namespace Machine

/-- The shift: bits 14:0 move up, the sample enters at bit 0, the old bit 15 is dropped (40_debouncer.md R101). -/
def shiftIn (h : Hist) (p : Level) : Hist :=
  (h <<< 1) ||| (BitVec.ofBool p).zeroExtend 16

/-- StartOnly, channel 2: `SO_BASE + r / SO_DIV` (43_output_mapper.md R160). -/
def startOnlyDuty2 (c : Config) (r : Nat) : Nat :=
  c.store (c.soBase + r / c.soDiv)

/-- On, both channels: `ON_BASE + r / ON_DIV` (43_output_mapper.md R161). -/
def onDuty (c : Config) (r : Nat) : Nat :=
  c.store (c.onBase + r / c.onDiv)

/-- What selects the operations of a phase in this state (30_encoding.md R85). -/
def State.ctx (s : State) : Ctx where
  variant := s.cfg.variant
  mode := s.blk.mode
  tag1 := s.cfg.tag1
  tag2 := s.cfg.tag2
  edge1 := s.edge1
  edge2 := s.edge2
  rx := encodeRxSlot s.inp.rx

end Machine

end Sys2Proof
end

