-- ==== Sys2Proof/Machine/Flags.lean ====
section
/-! DEFINITION. The flags: the stable level and edge of the comparator, and the ramp value with its direction. -/

namespace Sys2Proof.Machine

/-- The comparator on the shifted history: the new stable level and the edge (40_debouncer.md R100, R102, R103). -/
def comparator (h : Hist) (stable : Level) : Level × Edge :=
  if h = 0xFFFF ∧ stable = false then (true, .rising)
  else if h = 0x0000 ∧ stable = true then (false, .falling)
  else (stable, .none)

/-- RAMP_ADV_V1's value and direction (42_brightness_ramp.md R140, with its MIN and MAX `V1_MIN` and `V1_MAX`; log 10). -/
def rampNextV1 (c : Config) (v : Nat) (d : Dir) : Nat × Dir :=
  match d with
  | .inc => if v + c.step > c.v1Max then (c.store c.v1Max, .dec) else (c.store (v + c.step), .inc)
  | .dec => if v < c.v1Min + c.step then (c.store c.v1Min, .inc) else (c.store (v - c.step), .dec)

/-- RAMP_ADV_V2's value and direction: the two clamps first, then the step that saturates and flips
(42_brightness_ramp.md R141, 90_conflicts.md C2). -/
def rampNextV2 (c : Config) (v : Nat) (d : Dir) : Nat × Dir :=
  if v > c.v2Ub then (c.store c.v2Ub, .dec)
  else if v < c.v2Lb then (c.store c.v2Lb, .inc)
  else
    match d with
    | .inc => if v + c.step > c.v2Ub then (c.store c.v2Ub, .dec) else (c.store (v + c.step), .inc)
    | .dec => if v < c.v2Lb + c.step then (c.store c.v2Lb, .inc) else (c.store (v - c.step), .dec)

end Sys2Proof.Machine
end

