-- ==== Sys2Proof/Machine/Ops.lean ====
section
/-! DEFINITION. The named reads and writes of the state, the primitives of 00_scope.md R10, entering the halted state
and leaving it, and what the outside world may see. -/

namespace Sys2Proof.Machine

/-! ## Registers of the block -/

def Block.hist (b : Block) : Chan → Hist
  | .one => b.hist1
  | .two => b.hist2

def Block.stable (b : Block) : Chan → Level
  | .one => b.stable1
  | .two => b.stable2

def Block.duty (b : Block) : Chan → Option Nat
  | .one => b.duty1
  | .two => b.duty2

/-- Instance `i` of the debouncer writes only its own history and stable level (10_state.md R24). -/
def Block.setDeb (b : Block) (i : Chan) (h : Hist) (l : Level) : Block :=
  match i with
  | .one => { b with hist1 := h, stable1 := l }
  | .two => { b with hist2 := h, stable2 := l }

def Block.setRamp (b : Block) (v : Nat) (d : Dir) : Block :=
  { b with rampV := v, rampDir := d }

def Block.setMode (b : Block) (m : Mode) : Block :=
  { b with mode := m }

def Block.setDuty (b : Block) (c : Chan) (v : Nat) : Block :=
  match c with
  | .one => { b with duty1 := some v }
  | .two => { b with duty2 := some v }

def Block.setHalted (b : Block) : Block :=
  { b with halted := true }

/-! ## Parts of the machine -/

def State.setBlk (s : State) (b : Block) : State :=
  { s with blk := b }

def State.setInputs (s : State) (i : Inputs) : State :=
  { s with inp := i }

def State.setRx (s : State) (r : Option Byte) : State :=
  { s with inp := { s.inp with rx := r } }

def State.setFatal (s : State) (f : Bool) : State :=
  { s with inp := { s.inp with fatal := f } }

def State.setSamples (s : State) (p1 p2 : Level) : State :=
  { s with samp1 := p1, samp2 := p2 }

def State.setEdge (s : State) (i : Chan) (e : Edge) : State :=
  match i with
  | .one => { s with edge1 := e }
  | .two => { s with edge2 := e }

def State.setOutputs (s : State) (tx : List Byte) (pwm : List PwmWrite) (e1 e2 : Edge) : State :=
  { s with tx := tx, pwm := pwm, edge1 := e1, edge2 := e2 }

def State.setPending (s : State) (p : List Work) : State :=
  { s with pending := p }

def State.nextDraw (s : State) : State :=
  { s with draws := s.draws + 1 }

def State.sampled (s : State) : Chan → Level
  | .one => s.samp1
  | .two => s.samp2

def State.edge (s : State) : Chan → Edge
  | .one => s.edge1
  | .two => s.edge2

/-- At the start of a tick nothing has been sent, written or reported in it (44_main_loop.md R180: tx = [],
edge1 = None, edge2 = None). -/
def State.clearOutputs (s : State) : State :=
  s.setOutputs [] [] .none .none

/-! ## The primitives of 00_scope.md R10 -/

/-- `SamplePin(i)`: no side effect (20_memory.md R56). -/
def State.samplePin (s : State) : Chan → Level
  | .one => s.inp.pin1
  | .two => s.inp.pin2

/-- The state after `RxTake()`: the byte is consumed (20_memory.md R57). -/
def State.rxTaken (s : State) : State :=
  s.setRx none

/-- `TxEmit(bs)`: after every byte sent earlier (20_memory.md R58). -/
def State.txEmit (s : State) (bs : List Byte) : State :=
  { s with tx := s.tx ++ bs }

/-- `PwmWrite(c, v)`: one atomic write of a duty register (20_memory.md R55). -/
def State.pwmWrite (s : State) (c : Chan) (v : Nat) : State :=
  { s with blk := s.blk.setDuty c v, pwm := s.pwm ++ [{ channel := c, value := v }] }

/-- `Sleep()`: the outputs hold and no input is sampled (44_main_loop.md R183, 60_exceptions.md R214). -/
def State.slept (s : State) : State :=
  s

/-! ## The halted state and reset -/

/-- `raise Fatal`: `halted` becomes 1 and every other field keeps its value; nothing is saved, nothing is reported
(60_exceptions.md R201, R202). -/
def State.enterHalt (s : State) : State :=
  s.setBlk s.blk.setHalted

/-- Reset, the only way out of the halted state (60_exceptions.md R204): every field of the block state takes its
reset value, and no output of an earlier tick stands at the ports (70_reset_and_hazards.md R230). -/
def State.restart (s : State) : State :=
  (s.setBlk (Block.reset s.cfg)).clearOutputs

/-- The block in the start state of a test program: the named fields, and the reset values of the others
(30_encoding.md R82). -/
def Block.startOf (c : Config) (st : Start) : Block where
  hist1 := st.hist1.getD (Block.reset c).hist1
  hist2 := st.hist2.getD (Block.reset c).hist2
  stable1 := st.stable1.getD (Block.reset c).stable1
  stable2 := st.stable2.getD (Block.reset c).stable2
  rampV := c.store (st.rampV.getD c.rampInitV)
  rampDir := st.rampDir.getD (Block.reset c).rampDir
  mode := st.mode.getD (Block.reset c).mode
  duty1 := st.duty1.map c.store <|> (Block.reset c).duty1
  duty2 := st.duty2.map c.store <|> (Block.reset c).duty2
  halted := st.halted.getD (Block.reset c).halted

/-- The machine with configuration `c` in the start state of a test program, its stimuli placed; none where a word of
it is refused or its start state names a field that the variant lacks (30_encoding.md R82; log 24). -/
def State.load (c : Config) (p : Program) : Option State :=
  if p.start.inVariant c.variant then
    (linesStims p.lines).map fun xs =>
      ((State.resetOf c).setBlk (Block.startOf c p.start)).setPending (xs.map .stim)
  else none

/-- A tick whose whole performance leads to `whole` is cut short by reset: its state changes are discarded; of its
`tx` any prefix, and of its duty writes any part, has been seen (70_reset_and_hazards.md R240; log 15). -/
def State.interrupted (whole : State) (cut : Cut) : State :=
  whole.restart.setOutputs (whole.tx.take cut.txKept)
    (whole.pwm.filter fun w => match w.channel with | .one => cut.write1 | .two => cut.write2)
    (if cut.edges then whole.edge1 else .none) (if cut.edges then whole.edge2 else .none)

/-- An operation has its effect in a block that is not halted; a halted block does nothing (44_main_loop.md R186;
log 11). -/
def whenRunning (f : State → State) (s : State) : Host.Outcome State Fault Refusal :=
  if s.blk.halted then .next s else .next (f s)

/-- A code run alone brings the operand that selects it: an `rx_slot` word is the receive slot, the tag of a report
comes with a Falling edge of its input, and HALT's event is the `fatal` bit (30_encoding.md R72, R85; log 3). -/
def State.present (s : State) : Code → State
  | .rxSlot w => s.setRx (if w.getLsbD 8 then some (w.setWidth 8) else none)
  | .txTag b =>
    if b = s.cfg.tag1 then s.setEdge .one .falling else if b = s.cfg.tag2 then s.setEdge .two .falling else s
  | .event fatal => s.setFatal fatal
  | .phase3 _ | .phases _ | .other _ _ => s

/-! ## What the outside world may see -/

/-- The k-th read of a duty register by the PWM carrier: any value of its width while it is unwritten (10_state.md R28). -/
def State.dutyPort (s : State) (c : Chan) (k : Nat) : Nat :=
  match s.blk.duty c with
  | some v => v
  | none => Config.freeDuty c k % (s.cfg.regMax + 1)

/-- What the pin of a channel stands for at the k-th look: any value while the block is halted, else the duty
(60_exceptions.md R203). -/
def State.pwmPins (s : State) (c : Chan) (k : Nat) : Nat :=
  if s.blk.halted then Config.freePwm c k else s.dutyPort c k

/-- Within a tick from `s` to `t` the carrier sees of each register its old or its new value (20_memory.md R59). -/
def carrierMaySee (s t : State) (c : Chan) (k : Nat) (v : Nat) : Prop :=
  v = s.dutyPort c k ∨ v = t.dutyPort c k

/-- The observation of one tick (44_main_loop.md R187). -/
structure Obs where
  tx : List Byte
  duty1 : Option Nat
  duty2 : Option Nat
  edge1 : Edge
  edge2 : Edge
  halted : Bool
deriving DecidableEq, Repr

def State.obs (s : State) : Obs where
  tx := s.tx
  duty1 := s.blk.duty1
  duty2 := s.blk.duty2
  edge1 := s.edge1
  edge2 := s.edge2
  halted := s.blk.halted

end Sys2Proof.Machine
end

