-- ==== Sys2Proof/Machine/Command.lean ====
section
/-! DEFINITION. serial_byte_parser_and_reporter: the command operations and the reports (41_command_protocol.md). -/

namespace Sys2Proof.Machine

/-! ## Inbound (variant 1) -/

/-- Does `RxTake()` give a byte that `p` admits, in the variant that reads it (41_command_protocol.md R125)? -/
def received (p : Byte → Bool) (s : State) : Bool :=
  s.cfg.variant == .v1 && s.inp.rx.any p

/-- A command row: where the receive slot holds its byte, take it and write the mode; else the row is not selected
and nothing changes (41_command_protocol.md R120 to R122; log 12). -/
def command (b : Byte) (m : Mode) (s : State) : State :=
  if received (· == b) s then s.rxTaken.setBlk (s.blk.setMode m) else s

def cmdS (s : State) : State :=
  command chS .startOnly s

def cmdN (s : State) : State :=
  command chN .off s

def cmdB (s : State) : State :=
  command chB .on s

/-- The byte is consumed and has no effect (41_command_protocol.md R123). -/
def cmdOther (byte : Byte) (s : State) : State :=
  if received (fun b => b == byte && !isCommand b) s then s.rxTaken else s

/-- No byte: no state change (41_command_protocol.md R124). -/
def rxNone (s : State) : State :=
  s

/-- CMD_S (41_command_protocol.md R120). -/
def execCmdS (s : State) : Host.Outcome State Fault Refusal :=
  whenRunning cmdS s

/-- CMD_N (41_command_protocol.md R121). -/
def execCmdN (s : State) : Host.Outcome State Fault Refusal :=
  whenRunning cmdN s

/-- CMD_B (41_command_protocol.md R122). -/
def execCmdB (s : State) : Host.Outcome State Fault Refusal :=
  whenRunning cmdB s

/-- CMD_OTHER (41_command_protocol.md R123). -/
def execCmdOther (byte : Byte) (s : State) : Host.Outcome State Fault Refusal :=
  whenRunning (cmdOther byte) s

/-- RX_NONE (41_command_protocol.md R124). -/
def execRxNone (s : State) : Host.Outcome State Fault Refusal :=
  whenRunning rxNone s

/-- Phase 4 of a tick: in variant 1 the one row that the receive slot selects; in variant 2 nothing
(44_main_loop.md R180, 41_command_protocol.md R125). -/
def commandPhase (s : State) : State :=
  match s.cfg.variant with
  | .v1 =>
    match s.inp.rx with
    | none => rxNone s
    | some b =>
      if b = chS then cmdS s else if b = chN then cmdN s else if b = chB then cmdB s else cmdOther b s
  | .v2 => s

/-! ## Outbound -/

/-- A report: where input `i` has confirmed a Falling edge, emit its frame (41_command_protocol.md R127, R128). -/
def report (i : Chan) (tag : Byte) (s : State) : State :=
  if s.edge i = .falling then s.txEmit (frame tag s.cfg.lineTerm) else s

def rptBtn1 (s : State) : State :=
  report .one s.cfg.tag1 s

def rptBtn2 (s : State) : State :=
  report .two s.cfg.tag2 s

/-- RPT_BTN1 (41_command_protocol.md R127). -/
def execRptBtn1 (s : State) : Host.Outcome State Fault Refusal :=
  whenRunning rptBtn1 s

/-- RPT_BTN2 (41_command_protocol.md R128). -/
def execRptBtn2 (s : State) : Host.Outcome State Fault Refusal :=
  whenRunning rptBtn2 s

end Sys2Proof.Machine
end

