-- ==== Sys2Proof/Machine/Debouncer.lean ====
section
/-! DEFINITION. debounce_shift_register: DEB_UPDATE (40_debouncer.md). -/

namespace Sys2Proof.Machine

/-- One instance: shift the sample in, compare, write its history and stable level, give its edge
(40_debouncer.md R100). -/
def debInstance (i : Chan) (s : State) : State :=
  let h := shiftIn (s.blk.hist i) (s.sampled i)
  let r := comparator h (s.blk.stable i)
  (s.setBlk (s.blk.setDeb i h r.1)).setEdge i r.2

/-- Instance 1, then instance 2 (40_debouncer.md R104). -/
def debUpdate (s : State) : State :=
  debInstance .two (debInstance .one s)

/-- DEB_UPDATE (40_debouncer.md R100). -/
def execDebUpdate (s : State) : Host.Outcome State Fault Refusal :=
  whenRunning debUpdate s

end Sys2Proof.Machine
end

