-- ==== Sys2Proof/Machine/Mux.lean ====
section
/-! DEFINITION. pwm_duty_mux: the four MUX operations (43_output_mapper.md). -/

namespace Sys2Proof.Machine

/-- Both duty registers, channel 1 first: two separate writes (20_memory.md R55). -/
def writeDuties (d1 d2 : Nat) (s : State) : State :=
  (s.pwmWrite .one d1).pwmWrite .two d2

def muxV1StartOnly (s : State) : State :=
  writeDuties (s.cfg.store s.cfg.soDuty1) (startOnlyDuty2 s.cfg s.blk.rampV) s

def muxV1On (s : State) : State :=
  writeDuties (onDuty s.cfg s.blk.rampV) (onDuty s.cfg s.blk.rampV) s

def muxV1Off (s : State) : State :=
  writeDuties (s.cfg.store s.cfg.offDuty) (s.cfg.store s.cfg.offDuty) s

def muxV2 (s : State) : State :=
  writeDuties s.blk.rampV s.blk.rampV s

/-- MUX_V1_STARTONLY (43_output_mapper.md R160). -/
def execMuxV1StartOnly (s : State) : Host.Outcome State Fault Refusal :=
  whenRunning muxV1StartOnly s

/-- MUX_V1_ON (43_output_mapper.md R161). -/
def execMuxV1On (s : State) : Host.Outcome State Fault Refusal :=
  whenRunning muxV1On s

/-- MUX_V1_OFF (43_output_mapper.md R162). -/
def execMuxV1Off (s : State) : Host.Outcome State Fault Refusal :=
  whenRunning muxV1Off s

/-- MUX_V2 (43_output_mapper.md R163). -/
def execMuxV2 (s : State) : Host.Outcome State Fault Refusal :=
  whenRunning muxV2 s

/-- Phase 5 of a tick (44_main_loop.md R180). -/
def muxPhase (s : State) : State :=
  match s.cfg.variant with
  | .v1 =>
    match s.blk.mode with
    | .startOnly => muxV1StartOnly s
    | .on => muxV1On s
    | .off => muxV1Off s
  | .v2 => muxV2 s

end Sys2Proof.Machine
end

