-- ==== Sys2Proof/Machine/Ramp.lean ====
section
/-! DEFINITION. pwm_ramp_counter: RAMP_ADV_V1 and RAMP_ADV_V2 (42_brightness_ramp.md). -/

namespace Sys2Proof.Machine

def rampAdvV1 (s : State) : State :=
  let r := rampNextV1 s.cfg s.blk.rampV s.blk.rampDir
  s.setBlk (s.blk.setRamp r.1 r.2)

def rampAdvV2 (s : State) : State :=
  let r := rampNextV2 s.cfg s.blk.rampV s.blk.rampDir
  s.setBlk (s.blk.setRamp r.1 r.2)

/-- RAMP_ADV_V1 (42_brightness_ramp.md R140). -/
def execRampAdvV1 (s : State) : Host.Outcome State Fault Refusal :=
  whenRunning rampAdvV1 s

/-- RAMP_ADV_V2 (42_brightness_ramp.md R141). -/
def execRampAdvV2 (s : State) : Host.Outcome State Fault Refusal :=
  whenRunning rampAdvV2 s

/-- Phase 6 of a tick (44_main_loop.md R180). -/
def rampPhase (s : State) : State :=
  match s.cfg.variant with
  | .v1 => rampAdvV1 s
  | .v2 => rampAdvV2 s

end Sys2Proof.Machine
end

