-- ==== Sys2Proof/Machine/MainLoop.lean ====
section
/-! DEFINITION. The tick sequencer: SAMPLE, SLEEP, HALT and TICK (44_main_loop.md, 60_exceptions.md R201). -/

namespace Sys2Proof.Machine

def sample (s : State) : State :=
  s.setSamples (s.samplePin .one) (s.samplePin .two)

/-- SAMPLE (44_main_loop.md R181). -/
def execSample (s : State) : Host.Outcome State Fault Refusal :=
  whenRunning sample s

/-- SLEEP: the model takes no step here (44_main_loop.md R183). -/
def execSleep (s : State) : Host.Outcome State Fault Refusal :=
  whenRunning State.slept s

/-- On `fatal` = 1 the block halts (60_exceptions.md R201). -/
def haltOnFatal (s : State) : State :=
  if s.inp.fatal then s.enterHalt else s

/-- HALT (60_exceptions.md R201); already halted, it has no further effect. -/
def execHalt (s : State) : Host.Outcome State Fault Refusal :=
  whenRunning haltOnFatal s

/-- The phases 1 to 7, each seeing the writes of the earlier ones (44_main_loop.md R180, R182). -/
def phases (s : State) : State :=
  (rampPhase (muxPhase (commandPhase (rptBtn2 (rptBtn1 (debUpdate (sample s))))))).slept

/-- One iteration of the main loop: nothing when halted, the halt when fatal, else the seven phases
(44_main_loop.md R180, R186). -/
def tick (s : State) : State :=
  let s0 := s.clearOutputs
  if s0.blk.halted then s0
  else if s0.inp.fatal then s0.enterHalt
  else phases s0

/-- TICK (44_main_loop.md R180). -/
def execTick (s : State) : Host.Outcome State Fault Refusal :=
  .next (tick s)

end Sys2Proof.Machine
end

