-- ==== Sys2Proof/Machine/Dispatch.lean ====
section
/-! DEFINITION. exec: one meaning for each constructor of Instr. -/

namespace Sys2Proof.Machine

def exec (i : Instr) (s : State) : Host.Outcome State Fault Refusal :=
  match i with
  | .sample => Sys2Proof.Machine.execSample s
  | .debUpdate => Sys2Proof.Machine.execDebUpdate s
  | .rptBtn1 => Sys2Proof.Machine.execRptBtn1 s
  | .rptBtn2 => Sys2Proof.Machine.execRptBtn2 s
  | .cmdS => Sys2Proof.Machine.execCmdS s
  | .cmdN => Sys2Proof.Machine.execCmdN s
  | .cmdB => Sys2Proof.Machine.execCmdB s
  | .rxNone => Sys2Proof.Machine.execRxNone s
  | .cmdOther byte => Sys2Proof.Machine.execCmdOther byte s
  | .muxV1StartOnly => Sys2Proof.Machine.execMuxV1StartOnly s
  | .muxV1On => Sys2Proof.Machine.execMuxV1On s
  | .muxV1Off => Sys2Proof.Machine.execMuxV1Off s
  | .muxV2 => Sys2Proof.Machine.execMuxV2 s
  | .rampAdvV1 => Sys2Proof.Machine.execRampAdvV1 s
  | .rampAdvV2 => Sys2Proof.Machine.execRampAdvV2 s
  | .sleep => Sys2Proof.Machine.execSleep s
  | .halt => Sys2Proof.Machine.execHalt s
  | .tick => Sys2Proof.Machine.execTick s

end Sys2Proof.Machine
end

