-- ==== Sys2Proof/Machine/Step.lean ====
section
/-! DEFINITION. One step of the machine: the next stimulus, placed or free (log 2), or one operation alone (log 3). -/

namespace Sys2Proof.Machine

/-- Operations one after another. -/
def execAll : List Instr → State → Host.Outcome State Fault Refusal
  | [], s => .next s
  | i :: is, s =>
    match exec i s with
    | .next t => execAll is t
    | .fault r => .fault r
    | .refused r => .refused r

/-- What the outside world does to the machine (20_memory.md R51, 60_exceptions.md R206). DESIGN CHOICE (log 16): after
a fatal report outside a tick the edges, `tx` and the record of duty writes are cleared, as after a reset; the spec gives
the ports per tick only (R202, R203). -/
def stimulate (s : State) : Stim → Host.Outcome State Fault Refusal
  | .tick i => exec .tick (s.setInputs i)
  | .fatal => exec .halt (s.clearOutputs.setFatal true)
  | .rst => .next s.restart
  | .rstDuring i cut => .next ((tick (s.setInputs i)).interrupted cut)

/-- A code run alone: the operations it selects, in order (30_encoding.md R85). -/
def runCode (s : State) (c : Code) : Host.Outcome State Fault Refusal :=
  match select (s.present c).ctx c with
  | .ok is => execAll is (s.present c)
  | .error e => .refused (.badCode e)

/-- A machine whose configuration breaks 00_scope.md R7, 10_state.md R36 or 41_command_protocol.md R133 is refused
(93_implementation_defined.md section 2). -/
def State.checked (s : State) (r : Host.Outcome State Fault Refusal) : Host.Outcome State Fault Refusal :=
  if s.cfg.wf then r else .refused .badConfig

/-- One step: the oldest thing placed; where nothing is placed, the next free stimulus. -/
def step (s : State) : Host.Outcome State Fault Refusal :=
  match s.pending with
  | [] => s.checked (stimulate s.nextDraw (Config.freeStim s.draws))
  | .stim x :: rest => s.checked (stimulate (s.setPending rest) x)
  | .op c :: rest => s.checked (runCode (s.setPending rest) c)

/-- `s` with the operation of an opcode-table word placed to run next (log 3, log 4). -/
def State.withFetchWord (s : State) (nbits w : Nat) : State :=
  s.setPending (.op (tableCode nbits w) :: s.pending)

end Sys2Proof.Machine
end

