-- ==== Sys2Proof/Safety.lean ====
section
/-! DEFINITION. What claims speak of: runs, the invariant of every state, and the traces of a run. -/

namespace Sys2Proof

/-- The level that inputs hold at pin `n`. -/
def Inputs.pin (i : Inputs) : Chan → Level
  | .one => i.pin1
  | .two => i.pin2

/-- A value inside the variant 2 bounds (42_brightness_ramp.md R142). -/
def Config.inV2Range (c : Config) (v : Nat) : Prop :=
  c.v2Lb ≤ v ∧ v ≤ c.v2Ub

namespace Machine

/-! ## Runs -/

/-- One tick for each of the inputs, in order (44_main_loop.md R184). -/
def runTicks : List Inputs → State → Host.Outcome State Fault Refusal
  | [], s => .next s
  | i :: is, s =>
    match exec .tick (s.setInputs i) with
    | .next t => runTicks is t
    | .fault r => .fault r
    | .refused r => .refused r

/-- What the next step takes: the oldest thing placed, or the next free stimulus (log 2). -/
def State.nextWork (s : State) : Work :=
  s.pending.headD (.stim (Config.freeStim s.draws))

/-- A reset, between two ticks or inside one (70_reset_and_hazards.md R230, R240). -/
def Work.isReset : Work → Bool
  | .stim .rst | .stim (.rstDuring _ _) => true
  | .stim (.tick _) | .stim .fatal | .op _ => false

/-- Is the work a tick, whole or cut short by a reset? Of lone codes only TICK's own is one (log 25). -/
def Work.isTick : Work → Bool
  | .stim (.tick _) | .stim (.rstDuring _ _) | .op (.phases _) => true
  | .stim .fatal | .stim .rst | .op (.phase3 _) | .op (.rxSlot _) | .op (.txTag _) | .op (.event _)
  | .op (.other _ _) => false

/-- The observation of a run of at most `n` steps: one entry for each tick, in order, and none for a step that is no
tick; a run that is refused shows nothing more (44_main_loop.md R187). The first N entries of a run are
`(observation n s).take N` for n large enough. -/
def observation : Nat → State → List Obs
  | 0, _ => []
  | n + 1, s =>
    match step s with
    | .next t => (if s.nextWork.isTick then [t.obs] else []) ++ observation n t
    | .fault _ => []
    | .refused _ => []

/-- `s` with these stimuli placed, and nothing else. -/
def State.placing (s : State) (xs : List Stim) : State :=
  { s with pending := xs.map .stim }

/-- One operation `n` times. -/
def execTimes (i : Instr) : Nat → State → Host.Outcome State Fault Refusal
  | 0, s => .next s
  | n + 1, s =>
    match exec i s with
    | .next t => execTimes i n t
    | .fault r => .fault r
    | .refused r => .refused r

/-- The operations that each of the phase codes selects, phase after phase (30_encoding.md R85). -/
def runPhases : List (BitVec 3) → State → Host.Outcome State Fault Refusal
  | [], s => .next s
  | w :: ws, s =>
    match select s.ctx (.phase3 w) with
    | .error e => .refused (.badCode e)
    | .ok is =>
      match execAll is s with
      | .next t => runPhases ws t
      | .fault r => .fault r
      | .refused r => .refused r

/-- The edges other than None that instance `n` gives in the ticks of a run, in order (40_debouncer.md R107). -/
def edgeTrace (n : Chan) : List Inputs → State → List Edge
  | [], _ => []
  | i :: is, s =>
    let t := tick (s.setInputs i)
    (if t.edge n = .none then [] else [t.edge n]) ++ edgeTrace n is t

/-- The mode that a receive slot selects, if any (30_encoding.md R72). -/
def slotMode : Option Byte → Option Mode
  | none => none
  | some b => if b = chS then some .startOnly else if b = chN then some .off else if b = chB then some .on else none

/-- The mode after a run of receive slots: the last recognised byte wins (41_command_protocol.md R126). -/
def lastMode (m : Mode) : List Inputs → Mode
  | [] => m
  | i :: is => lastMode ((slotMode i.rx).getD m) is

/-- The duty registers after the first writes of a tick (20_memory.md R55, R59). -/
def applyWrites : List PwmWrite → Block → Block
  | [], b => b
  | w :: ws, b => applyWrites ws (b.setDuty w.channel w.value)

/-- `s` after the two writes of a MUX operation (43_output_mapper.md): both duty registers and the record of the
two writes, and nothing else. -/
def State.withDuties (s : State) (d1 d2 : Nat) : State :=
  { s with
    blk := { s.blk with duty1 := some d1, duty2 := some d2 }
    pwm := s.pwm ++ [{ channel := .one, value := d1 }, { channel := .two, value := d2 }] }

/-! ## The invariant -/

/-- A unanimous history agrees with the stable level (10_state.md R33). -/
def histAgrees (h : Hist) (l : Level) : Prop :=
  (h = 0xFFFF → l = true) ∧ (h = 0x0000 → l = false)

/-- What holds of every state a run meets (10_state.md R33): the configuration is admitted, unanimous histories
agree with their stable levels, in variant 2 a ramp that starts in its bounds stays there (where a register can hold
them; log 10) and `mode` stays at its fixed value, the two duty registers are written or unwritten together, and
every value is one that its register can hold. -/
structure State.Inv (s : State) : Prop where
  admitted : s.cfg.wf = true
  agrees1 : histAgrees s.blk.hist1 s.blk.stable1
  agrees2 : histAgrees s.blk.hist2 s.blk.stable2
  bounds : s.cfg.variant = .v2 → s.cfg.v2Ub ≤ s.cfg.regMax → s.cfg.inV2Range s.cfg.rampInitV → s.cfg.inV2Range s.blk.rampV
  fixedMode : s.cfg.variant = .v2 → s.blk.mode = .startOnly
  together : s.blk.duty1.isSome = s.blk.duty2.isSome
  rampFits : s.blk.rampV ≤ s.cfg.regMax
  dutyFits : ∀ c v, s.blk.duty c = some v → v ≤ s.cfg.regMax

end Machine

end Sys2Proof
end

