-- ==== Sys2Proof/Certificates/Slice0/Obligations.lean ====
section
/-! DEFINITION. The statements for the provers. Each docstring names the rule or section of spec/ it comes from. -/

open Sys2Proof Sys2Proof.Machine

/-! ## Reset and the halted state -/

/-- 10_state.md section 9. Only the value of `mode` is the source's. Those of the histories and stable levels
(decision D5; log 9: one pair for both instances, a configuration field), of the duty registers (decision D16) and of
`halted` (decision D17) are the spec's; the ramp's are the defaults of decision D7 that log 8 names as the model's
choice for `State.reset`; that variant 2 keeps a `mode` is the model's (log 17), and so is an initial ramp value that
the register cannot hold (log 10). -/
def Obligations.ResetLeavesTheTabledValues : Prop :=
  (∀ c : Config, (State.resetOf c).blk =
    { hist1 := c.histInit, hist2 := c.histInit, stable1 := c.stableInit, stable2 := c.stableInit
      rampV := c.store c.rampInitV, rampDir := c.rampInitDir, mode := .startOnly, duty1 := none, duty2 := none
      halted := false } ∧ c.holds c.rampInitV (c.store c.rampInitV)) ∧
  State.reset.blk =
    { hist1 := 0xFFFF, hist2 := 0xFFFF, stable1 := true, stable2 := true, rampV := 0, rampDir := .inc
      mode := .startOnly, duty1 := none, duty2 := none, halted := false } ∧
  (State.resetOf Config.v2).blk = { State.reset.blk with rampV := 120 }

/-- 70_reset_and_hazards.md section 1 (decision D18): reset gives every field of the block its reset value, also
out of the halted state, and leaves the configuration and what is still placed. That the ports of the tick are cleared
(log 16), and what the ramp register holds where it cannot hold its initial value (log 10), are the model's choices. -/
def Obligations.ResetStimulusRestoresTheBlock : Prop :=
  ∀ (s : State) (rest : List Work), s.cfg.wf = true → s.pending = .stim .rst :: rest →
    step s = .next { s with
      blk :=
        { hist1 := s.cfg.histInit, hist2 := s.cfg.histInit, stable1 := s.cfg.stableInit
          stable2 := s.cfg.stableInit, rampV := s.cfg.store s.cfg.rampInitV, rampDir := s.cfg.rampInitDir
          mode := .startOnly, duty1 := none, duty2 := none, halted := false }
      tx := [], pwm := [], edge1 := .none, edge2 := .none, pending := rest }

/-- 70_reset_and_hazards.md section 3, the rule on reset during a tick (decision D18): the block is as after reset;
every prefix of the `tx` of the whole tick and every part of its duty writes can have been seen, and nothing else. -/
def Obligations.ResetInsideATickShowsAnyPrefix : Prop :=
  ∀ (s : State) (i : Inputs) (rest : List Work) (w : State), s.cfg.wf = true →
    exec .tick { s with inp := i, pending := rest } = .next w →
    (∀ (pre : List Byte) (b1 b2 : Bool), pre <+: w.tx →
      ∃ cut t, step { s with pending := .stim (.rstDuring i cut) :: rest } = .next t ∧
        t.blk = Block.reset s.cfg ∧ t.tx = pre ∧
        t.pwm = w.pwm.filter (fun p => match p.channel with | .one => b1 | .two => b2)) ∧
    (∀ cut, ∃ t, step { s with pending := .stim (.rstDuring i cut) :: rest } = .next t ∧
      t.blk = Block.reset s.cfg ∧ t.tx <+: w.tx ∧ t.pwm.Sublist w.pwm)

/-- 60_exceptions.md section 2 and 44_main_loop.md (decision D17): a tick that sees `fatal` runs no phase; only
`halted` changes in the block, and nothing is sent. -/
def Obligations.FatalTickOnlyHalts : Prop :=
  ∀ s : State, s.blk.halted = false → s.inp.fatal = true →
    exec .tick s = .next { s with
      blk := { s.blk with halted := true }, tx := [], pwm := [], edge1 := .none, edge2 := .none }

/-- 60_exceptions.md section 2 (decision D17): HALT sets `halted` on `fatal` = 1 and nothing else; without it, or
already halted, it does nothing. The last clause, a fatal report outside a tick in any state, is the model's reading
(log 14): the rule reads `fatal` at bring-up and at the start of a tick; that the output ports are cleared by it is the
model's choice (log 16). -/
def Obligations.HaltOperationSetsHalted : Prop :=
  (∀ x : Ctx, decode x (.event true) = .ok .halt) ∧
  (∀ s : State, s.blk.halted = false → s.inp.fatal = true →
    exec .halt s = .next { s with blk := { s.blk with halted := true } }) ∧
  (∀ s : State, s.blk.halted = true ∨ s.inp.fatal = false → exec .halt s = .next s) ∧
  (∀ (s : State) (rest : List Work), s.cfg.wf = true → s.pending = .stim .fatal :: rest →
    ∃ t, step s = .next t ∧ t.blk = { s.blk with halted := true } ∧ t.tx = [] ∧ t.pwm = [] ∧ t.pending = rest)

/-- R204: nothing but a reset clears `halted`: no operation, and no step that is not a reset; a reset clears it; a
fatal condition while halted is absorbed. -/
def Obligations.OnlyResetClearsHalted : Prop :=
  (∀ (i : Instr) (s t : State), s.blk.halted = true → exec i s = .next t → t.blk.halted = true) ∧
  (∀ s t : State, s.blk.halted = true → s.nextWork.isReset = false → step s = .next t → t.blk.halted = true) ∧
  (∀ s : State, s.cfg.wf = true → s.nextWork.isReset = true → ∃ t, step s = .next t ∧ t.blk.halted = false) ∧
  (∀ s : State, s.blk.halted = true → s.inp.fatal = true → ∃ t, exec .tick s = .next t ∧ t.blk = s.blk ∧ t.tx = [])

/-- 60_exceptions.md section 2 and 44_main_loop.md, the rule on a tick in the halted state (decision D17): a halted
block stays as it is until a reset. That a lone operation keeps all of it is the model's reading (log 11), and so is
the fatal report between two ticks (log 14); that its `tx` is empty is the model's choice (log 16). -/
def Obligations.OnlyResetLeavesTheHaltedState : Prop :=
  ∀ s : State, s.cfg.wf = true → s.blk.halted = true →
    (∀ i, ∃ t, exec i s = .next t ∧ t.blk = s.blk) ∧
    (∀ i rest, s.pending = .stim (.tick i) :: rest → ∃ t, step s = .next t ∧ t.blk = s.blk ∧ t.tx = []) ∧
    (∀ rest, s.pending = .stim .fatal :: rest → ∃ t, step s = .next t ∧ t.blk = s.blk ∧ t.tx = []) ∧
    (∀ c rest t, s.pending = .op c :: rest → step s = .next t → t.blk = s.blk) ∧
    (∀ rest, s.pending = .stim .rst :: rest → ∃ t, step s = .next t ∧ t.blk.halted = false) ∧
    (∀ i cut rest, s.pending = .stim (.rstDuring i cut) :: rest → ∃ t, step s = .next t ∧ t.blk.halted = false)

/-- 44_main_loop.md, the rule on a tick in the halted state (decision D17). -/
def Obligations.HaltedTickChangesNothing : Prop :=
  ∀ s : State, s.blk.halted = true →
    exec .tick s = .next { s with tx := [], pwm := [], edge1 := .none, edge2 := .none }

/-! ## The debouncers -/

/-- R181: both pins are read once into the samples and nothing else changes; in a tick the value read is the one its
debouncers take. -/
def Obligations.SampleReadsBothPins : Prop :=
  (∀ x : Ctx, decode x (.phase3 0b001) = .ok .sample) ∧
  (∀ s : State, s.blk.halted = false →
    exec .sample s = .next { s with samp1 := s.inp.pin1, samp2 := s.inp.pin2 }) ∧
  (∀ s : State, s.blk.halted = false → s.inp.fatal = false → ∃ t, exec .tick s = .next t ∧
    ∀ n, t.sampled n = s.inp.pin n ∧ (t.blk.hist n).getLsbD 0 = s.inp.pin n)

/-- 40_debouncer.md, DEB_UPDATE and the shift (decision D4): the sample enters at bit 0, every other bit moves up
one place; beside the histories, stable levels and edge results nothing changes. -/
def Obligations.DebUpdateShiftsEachHistory : Prop :=
  (∀ x : Ctx, decode x (.phase3 0b010) = .ok .debUpdate) ∧
  ∀ s : State, s.blk.halted = false → ∃ t, exec .debUpdate s = .next t ∧
    (∀ n, (t.blk.hist n).getLsbD 0 = s.sampled n ∧
      ∀ k < 15, (t.blk.hist n).getLsbD (k + 1) = (s.blk.hist n).getLsbD k) ∧
    t = { s with
      blk := { s.blk with
        hist1 := t.blk.hist1, hist2 := t.blk.hist2, stable1 := t.blk.stable1, stable2 := t.blk.stable2 }
      edge1 := t.edge1, edge2 := t.edge2 }

/-- R102: the stable level changes exactly when the shifted history is unanimous at the other level, and takes that
level. -/
def Obligations.StableLevelFollowsSixteenEqualBits : Prop :=
  ∀ s : State, s.blk.halted = false → ∃ t, exec .debUpdate s = .next t ∧ ∀ n,
    (t.blk.stable n ≠ s.blk.stable n ↔
      ∃ l, l ≠ s.blk.stable n ∧ ∀ k < 16, (t.blk.hist n).getLsbD k = l) ∧
    (t.blk.stable n ≠ s.blk.stable n → ∀ k < 16, (t.blk.hist n).getLsbD k = t.blk.stable n)

/-- 40_debouncer.md, the edge result (decision D3, conflict C1): Falling is the stable level going from 1 to 0,
Rising from 0 to 1, None is no change. -/
def Obligations.EdgeNamesTheChangeOfLevel : Prop :=
  ∀ s : State, s.blk.halted = false → ∃ t, exec .debUpdate s = .next t ∧ ∀ n,
    (t.edge n = .falling ↔ s.blk.stable n = true ∧ t.blk.stable n = false) ∧
    (t.edge n = .rising ↔ s.blk.stable n = false ∧ t.blk.stable n = true) ∧
    (t.edge n = .none ↔ t.blk.stable n = s.blk.stable n)

/-- R24: in a tick, instance `n` reads and writes only its own history and stable level, from its own pin. -/
def Obligations.DebouncersShareNoState : Prop :=
  ∀ (n : Chan) (s u : State), s.blk.halted = false → u.blk.halted = false → s.inp.fatal = false →
    u.inp.fatal = false → s.blk.hist n = u.blk.hist n → s.blk.stable n = u.blk.stable n →
    s.inp.pin n = u.inp.pin n →
    ∃ t v, exec .tick s = .next t ∧ exec .tick u = .next v ∧
      t.blk.hist n = v.blk.hist n ∧ t.blk.stable n = v.blk.stable n ∧ t.edge n = v.edge n

/-- 10_state.md section 2 (decision D4): after any ticks from reset, bit k of a history is the sample taken k ticks
before the last; bits that no sample has reached hold the reset level. -/
def Obligations.HistoryHoldsTheLastSamples : Prop :=
  ∀ (c : Config) (n : Chan) (is : List Inputs), c.wf = true → (∀ i ∈ is, i.fatal = false) →
    ∃ t, runTicks is (State.resetOf c) = .next t ∧
      ∀ k < 16, (t.blk.hist n).getLsbD k = ((is.reverse.map (fun i => i.pin n))[k]?).getD c.stableInit

/-- 40_debouncer.md, the property that follows (derived there): in every run from reset, a tick gives an edge exactly
when the last 16 samples, its own among them, are all at one level that differs from the stable level before it. -/
def Obligations.EdgeExactlyOnSixteenSamples : Prop :=
  ∀ (c : Config) (n : Chan) (is : List Inputs) (x : Inputs), c.wf = true →
    (∀ i ∈ is, i.fatal = false) → x.fatal = false →
    ∃ s t, runTicks is (State.resetOf c) = .next s ∧ exec .tick (s.setInputs x) = .next t ∧
      (t.edge n ≠ .none ↔ 16 ≤ is.length + 1 ∧
        ∃ l, l ≠ s.blk.stable n ∧ ∀ i ∈ (x :: is.reverse).take 16, i.pin n = l)

/-- 40_debouncer.md, at most one edge per transition (derived there): from reset, the edges of an instance alternate
whatever the inputs, Falling first from the released reset and Rising first from the pressed one. -/
def Obligations.EdgesAlternateFromReset : Prop :=
  ∀ (c : Config) (n : Chan) (is : List Inputs) (k : Nat), k < (edgeTrace n is (State.resetOf c)).length →
    (edgeTrace n is (State.resetOf c))[k]? =
      some (if (k % 2 = 0) = (c.stableInit = true) then Edge.falling else Edge.rising)

/-! ## The reports -/

/-- 41_command_protocol.md section 2, RPT_BTN1 and RPT_BTN2 with the tags of 30_encoding.md section 3: on a Falling
edge of its input each appends its tag and `LINE_TERM` to `tx`; on any other edge it does nothing (log 12). -/
def Obligations.ReportsAppendOneFrame : Prop :=
  (∀ x : Ctx, decode x (.txTag x.tag1) = .ok .rptBtn1) ∧
  (∀ x : Ctx, x.tag1 ≠ x.tag2 → decode x (.txTag x.tag2) = .ok .rptBtn2) ∧
  (Config.v1.tag1 = 0x6E ∧ Config.v1.tag2 = 0x70 ∧ Config.v2.tag1 = 0x6E ∧ Config.v2.tag2 = 0x62) ∧
  ∀ s : State, s.blk.halted = false →
    (s.edge1 = .falling → exec .rptBtn1 s = .next { s with tx := s.tx ++ s.cfg.tag1 :: s.cfg.lineTerm }) ∧
    (s.edge1 ≠ .falling → exec .rptBtn1 s = .next s) ∧
    (s.edge2 = .falling → exec .rptBtn2 s = .next { s with tx := s.tx ++ s.cfg.tag2 :: s.cfg.lineTerm }) ∧
    (s.edge2 ≠ .falling → exec .rptBtn2 s = .next s)

/-- 41_command_protocol.md section 2, both reports in one tick (decision D12), and 44_main_loop.md's bound on the
bytes of a tick (derived there): input 1's frame first, at most two frames. -/
def Obligations.TickSendsFrameOneBeforeFrameTwo : Prop :=
  ∀ s : State, s.blk.halted = false → s.inp.fatal = false → ∃ t, exec .tick s = .next t ∧
    t.tx = (if t.edge1 = .falling then s.cfg.tag1 :: s.cfg.lineTerm else []) ++
      (if t.edge2 = .falling then s.cfg.tag2 :: s.cfg.lineTerm else []) ∧
    t.tx.length ≤ 2 * (1 + s.cfg.lineTerm.length)

/-- R130: a Rising edge emits nothing, in either variant, and a tick with no Falling edge emits the empty list. -/
def Obligations.RisingEdgesEmitNothing : Prop :=
  (∀ s : State, (s.edge1 = .rising → exec .rptBtn1 s = .next s) ∧ (s.edge2 = .rising → exec .rptBtn2 s = .next s)) ∧
  ∀ s : State, s.blk.halted = false → s.inp.fatal = false → ∃ t, exec .tick s = .next t ∧
    (t.edge1 ≠ .falling → t.edge2 ≠ .falling → t.tx = [])

/-- R131: what a tick emits is the same whatever the received byte, the mode, the ramp and the duty values are; so a
press is reported in every mode. -/
def Obligations.ReportsIgnoreModeRampAndBytes : Prop :=
  ∀ s u : State, s.blk.halted = false → u.blk.halted = false → s.inp.fatal = false → u.inp.fatal = false →
    s.cfg = u.cfg → (∀ n, s.blk.hist n = u.blk.hist n ∧ s.blk.stable n = u.blk.stable n) →
    (∀ n, s.inp.pin n = u.inp.pin n) →
    ∃ t v, exec .tick s = .next t ∧ exec .tick u = .next v ∧ t.tx = v.tx ∧
      (t.edge1 = .falling → (s.cfg.tag1 :: s.cfg.lineTerm) <:+: v.tx) ∧
      (t.edge2 = .falling → (s.cfg.tag2 :: s.cfg.lineTerm) <:+: v.tx)

/-! ## The commands -/

/-- 41_command_protocol.md section 1, CMD_S, CMD_N and CMD_B: in variant 1 the byte of the row is taken and its mode
written, whatever the mode was, and nothing else; on any other slot, or in variant 2, no state of the block changes. In
a tick the new mode already selects the duty values (43_output_mapper.md), and an empty slot leaves the mode whatever
the tick sends. What a duty register of `VAL_W` bits holds, where the value is not one of its width, is the model's
choice (log 10). -/
def Obligations.CommandsWriteTheMode : Prop :=
  (∀ x : Ctx, x.variant = .v1 → decode x (.rxSlot 0x173) = .ok .cmdS ∧ decode x (.rxSlot 0x16E) = .ok .cmdN ∧
    decode x (.rxSlot 0x162) = .ok .cmdB) ∧
  (∀ s : State, s.blk.halted = false → s.cfg.variant = .v1 →
    (s.inp.rx = some 0x73 → exec .cmdS s =
      .next { s with blk := { s.blk with mode := .startOnly }, inp := { s.inp with rx := none } }) ∧
    (s.inp.rx = some 0x6E → exec .cmdN s =
      .next { s with blk := { s.blk with mode := .off }, inp := { s.inp with rx := none } }) ∧
    (s.inp.rx = some 0x62 → exec .cmdB s =
      .next { s with blk := { s.blk with mode := .on }, inp := { s.inp with rx := none } })) ∧
  (∀ s : State,
    (s.cfg.variant = .v2 ∨ s.inp.rx ≠ some 0x73 → ∃ t, exec .cmdS s = .next t ∧ t.blk = s.blk) ∧
    (s.cfg.variant = .v2 ∨ s.inp.rx ≠ some 0x6E → ∃ t, exec .cmdN s = .next t ∧ t.blk = s.blk) ∧
    (s.cfg.variant = .v2 ∨ s.inp.rx ≠ some 0x62 → ∃ t, exec .cmdB s = .next t ∧ t.blk = s.blk)) ∧
  (∀ s : State, s.blk.halted = false → s.inp.fatal = false → s.cfg.variant = .v1 →
    ∃ t d1 d2, exec .tick s = .next t ∧ t.blk.duty1 = some d1 ∧ t.blk.duty2 = some d2 ∧
      (s.inp.rx = some 0x73 → t.blk.mode = .startOnly ∧ s.cfg.holds s.cfg.soDuty1 d1 ∧
        s.cfg.holds (s.cfg.soBase + s.blk.rampV / s.cfg.soDiv) d2) ∧
      (s.inp.rx = some 0x6E → t.blk.mode = .off ∧ s.cfg.holds s.cfg.offDuty d1 ∧ s.cfg.holds s.cfg.offDuty d2) ∧
      (s.inp.rx = some 0x62 → t.blk.mode = .on ∧ d1 = d2 ∧
        s.cfg.holds (s.cfg.onBase + s.blk.rampV / s.cfg.onDiv) d1) ∧
      (s.inp.rx = none → t.blk.mode = s.blk.mode))

/-- R123, R124: each of the 253 other bytes is taken and has no effect; an empty slot has none either, and neither
operation ever changes the block; in a tick neither changes the mode, and the tick goes on to write both duties. -/
def Obligations.OtherBytesAndNoByteKeepTheMode : Prop :=
  (∀ (x : Ctx) (b : Byte), x.variant = .v1 → b ≠ 0x73 → b ≠ 0x6E → b ≠ 0x62 →
    decode x (.rxSlot (0x100 ||| b.zeroExtend 9)) = .ok (.cmdOther b)) ∧
  (∀ x : Ctx, x.variant = .v1 → decode x (.rxSlot 0x000) = .ok .rxNone) ∧
  (∀ (s : State) (b : Byte), s.blk.halted = false → s.cfg.variant = .v1 → s.inp.rx = some b → b ≠ 0x73 →
    b ≠ 0x6E → b ≠ 0x62 → exec (.cmdOther b) s = .next { s with inp := { s.inp with rx := none } }) ∧
  (∀ (s : State) (b : Byte), ∃ t, exec (.cmdOther b) s = .next t ∧ t.blk = s.blk) ∧
  (∀ s : State, s.inp.rx = none → exec .rxNone s = .next s) ∧
  (∀ s : State, s.blk.halted = false → s.inp.fatal = false → s.cfg.variant = .v1 →
    s.inp.rx ≠ some 0x73 → s.inp.rx ≠ some 0x6E → s.inp.rx ≠ some 0x62 →
    ∃ t, exec .tick s = .next t ∧ t.blk.mode = s.blk.mode ∧ t.inp.rx = none ∧
      t.blk.duty1.isSome ∧ t.blk.duty2.isSome)

/-- 41_command_protocol.md section 1. Where the receive slot or the variant does not select a command operation, it
does nothing at all and takes no byte: the model's reading of the guards (log 12). -/
def Obligations.UnselectedCommandsDoNothing : Prop :=
  ∀ s : State,
    (s.cfg.variant = .v2 ∨ s.inp.rx ≠ some 0x73 → exec .cmdS s = .next s) ∧
    (s.cfg.variant = .v2 ∨ s.inp.rx ≠ some 0x6E → exec .cmdN s = .next s) ∧
    (s.cfg.variant = .v2 ∨ s.inp.rx ≠ some 0x62 → exec .cmdB s = .next s) ∧
    (∀ b : Byte, s.cfg.variant = .v2 ∨ s.inp.rx ≠ some b ∨ b = 0x73 ∨ b = 0x6E ∨ b = 0x62 →
      exec (.cmdOther b) s = .next s) ∧
    (s.cfg.variant = .v2 ∨ s.inp.rx ≠ none → exec .rxNone s = .next s)

/-- R72: the command map: the rows' words, every other byte CMD_OTHER, and the words with v = 0 and a nonzero byte
refused. -/
def Obligations.CommandMapIsTotal : Prop :=
  ∀ w : BitVec 9,
    (decodeCommand w = .ok .cmdS ↔ w = 0x173) ∧ (decodeCommand w = .ok .cmdN ↔ w = 0x16E) ∧
    (decodeCommand w = .ok .cmdB ↔ w = 0x162) ∧ (decodeCommand w = .ok .rxNone ↔ w = 0x000) ∧
    (w.getLsbD 8 = true → w ≠ 0x173 → w ≠ 0x16E → w ≠ 0x162 → decodeCommand w = .ok (.cmdOther (w.setWidth 8))) ∧
    (w.getLsbD 8 = false → w ≠ 0x000 → decodeCommand w = .error .illegalRxSlot)

/-- 41_command_protocol.md section 1, variant 2 (decision D13): it does not take a byte, and no byte has any effect
on the block or its outputs. -/
def Obligations.VariantTwoIgnoresBytes : Prop :=
  ∀ (s : State) (r : Option Byte), s.cfg.variant = .v2 →
    ∃ t v, exec .tick s = .next t ∧ exec .tick { s with inp := { s.inp with rx := r } } = .next v ∧
      t.blk = v.blk ∧ t.obs = v.obs ∧ t.pwm = v.pwm ∧ t.inp.rx = s.inp.rx ∧ v.inp.rx = r ∧
      t.blk.mode = s.blk.mode

/-- 41_command_protocol.md section 1, consequences (derived there): after any ticks of variant 1 the mode is that of
the last recognised byte, or the one before. -/
def Obligations.LastRecognisedByteWins : Prop :=
  ∀ (s : State) (is : List Inputs), s.cfg.variant = .v1 → s.blk.halted = false → (∀ i ∈ is, i.fatal = false) →
    ∃ t, runTicks is s = .next t ∧ t.blk.mode = lastMode s.blk.mode is

/-! ## The ramp -/

/-- 42_brightness_ramp.md, RAMP_ADV_V1, in exact arithmetic; nothing but the ramp value and direction changes. The last
clause, with the bounds 0 and 255 in a register of 8 bits, is the rule as it is written. That any other bounds are the
parameters `V1_MIN` and `V1_MAX` of 00_scope.md is the model's reading, and that a register too narrow for a result
holds some value of its width is the model's choice (log 10). -/
def Obligations.RampV1SaturatesAndFlips : Prop :=
  (∀ x : Ctx, x.variant = .v1 → decode x (.phase3 0b110) = .ok .rampAdvV1) ∧
  (Config.v1.v1Min = 0 ∧ Config.v1.v1Max = 255 ∧ Config.v1.valW = 8 ∧ Config.v1.regMax = 255 ∧ Config.v1.step = 1) ∧
  ∀ s : State, s.blk.halted = false →
    ∃ (v : Nat) (d : Dir), exec .rampAdvV1 s = .next { s with blk := { s.blk with rampV := v, rampDir := d } } ∧
      (s.blk.rampDir = .inc → s.blk.rampV + s.cfg.step > s.cfg.v1Max → s.cfg.holds s.cfg.v1Max v ∧ d = .dec) ∧
      (s.blk.rampDir = .inc → s.blk.rampV + s.cfg.step ≤ s.cfg.v1Max →
        s.cfg.holds (s.blk.rampV + s.cfg.step) v ∧ d = .inc) ∧
      (s.blk.rampDir = .dec → s.blk.rampV < s.cfg.v1Min + s.cfg.step → s.cfg.holds s.cfg.v1Min v ∧ d = .inc) ∧
      (s.blk.rampDir = .dec → s.cfg.v1Min + s.cfg.step ≤ s.blk.rampV →
        s.cfg.holds (s.blk.rampV - s.cfg.step) v ∧ d = .dec) ∧
      (s.cfg.v1Min = 0 → s.cfg.v1Max = 255 → s.cfg.valW = 8 → s.blk.rampV ≤ 255 →
        (v, d) = match s.blk.rampDir with
          | .inc => if s.blk.rampV + s.cfg.step > 255 then (255, .dec) else (s.blk.rampV + s.cfg.step, .inc)
          | .dec => if s.blk.rampV < s.cfg.step then (0, .inc) else (s.blk.rampV - s.cfg.step, .dec))

/-- 42_brightness_ramp.md, RAMP_ADV_V2 (decision D8, conflict C2), with the bounds `V2_TOP - DEPTH` and `V2_TOP`, and
nothing but the ramp value and direction changes; that a register too narrow for a result holds some value of its width
is the model's choice (log 10). -/
def Obligations.RampV2ClampsSaturatesAndFlips : Prop :=
  (∀ x : Ctx, x.variant = .v2 → decode x (.phase3 0b110) = .ok .rampAdvV2) ∧
  ∀ s : State, s.blk.halted = false → ∀ lb ub r : Nat,
    lb = s.cfg.v2Top - s.cfg.depth → ub = s.cfg.v2Top → r = s.blk.rampV →
    ∃ (v : Nat) (d : Dir), exec .rampAdvV2 s = .next { s with blk := { s.blk with rampV := v, rampDir := d } } ∧
      (r > ub → s.cfg.holds ub v ∧ d = .dec) ∧
      (r < lb → s.cfg.holds lb v ∧ d = .inc) ∧
      (lb ≤ r → r ≤ ub → s.blk.rampDir = .inc → r + s.cfg.step > ub → s.cfg.holds ub v ∧ d = .dec) ∧
      (lb ≤ r → r ≤ ub → s.blk.rampDir = .inc → r + s.cfg.step ≤ ub → s.cfg.holds (r + s.cfg.step) v ∧ d = .inc) ∧
      (lb ≤ r → r ≤ ub → s.blk.rampDir = .dec → r < lb + s.cfg.step → s.cfg.holds lb v ∧ d = .inc) ∧
      (lb ≤ r → r ≤ ub → s.blk.rampDir = .dec → lb + s.cfg.step ≤ r → s.cfg.holds (r - s.cfg.step) v ∧ d = .dec)

/-- 42_brightness_ramp.md, bounds are kept (derived there): after a tick of variant 2 the ramp is in its bounds,
whatever it was before, where the register can hold the upper one (its width `VAL_W` is a parameter, log 10). -/
def Obligations.TickPutsTheV2RampInBounds : Prop :=
  ∀ s : State, s.cfg.v2Top ≤ s.cfg.regMax → s.cfg.variant = .v2 → s.blk.halted = false → s.inp.fatal = false →
    ∃ t, exec .tick s = .next t ∧ s.cfg.v2Top - s.cfg.depth ≤ t.blk.rampV ∧ t.blk.rampV ≤ s.cfg.v2Top

/-- 42_brightness_ramp.md, periodicity (derived there): with `STEP` = 1, and bounds that the register can hold,
the advance returns every state in the bounds after twice the number of values in them, and no sooner: 512 and 252
advances with the source values. The rule itself gives 256 values in variant 1; that the variant 1 bounds are the
parameters `V1_MIN` and `V1_MAX` of 00_scope.md, whatever they are, is the model's reading (log 10). -/
def Obligations.RampPeriodIsTwiceItsRange : Prop :=
  (2 * (Config.v1.v1Max - Config.v1.v1Min + 1) = 512 ∧ 2 * (Config.v2.depth + 1) = 252) ∧
  (∀ s : State, s.cfg.v1Max ≤ s.cfg.regMax → s.cfg.step = 1 → s.blk.halted = false → s.cfg.v1Min ≤ s.blk.rampV →
    s.blk.rampV ≤ s.cfg.v1Max →
    execTimes .rampAdvV1 (2 * (s.cfg.v1Max - s.cfg.v1Min + 1)) s = .next s ∧
      ∀ n, 0 < n → n < 2 * (s.cfg.v1Max - s.cfg.v1Min + 1) → execTimes .rampAdvV1 n s ≠ .next s) ∧
  (∀ s : State, s.cfg.wf = true → s.cfg.v2Top ≤ s.cfg.regMax → s.cfg.step = 1 → s.blk.halted = false →
    s.cfg.inV2Range s.blk.rampV →
    execTimes .rampAdvV2 (2 * (s.cfg.depth + 1)) s = .next s ∧
      ∀ n, 0 < n → n < 2 * (s.cfg.depth + 1) → execTimes .rampAdvV2 n s ≠ .next s)

/-- 42_brightness_ramp.md, flips (derived there): an advance that flips the direction leaves the value at a boundary
(where the register can hold it), and the step would have passed it or the value stood outside the bounds. That the
variant 1 bounds are the parameters `V1_MIN` and `V1_MAX`, and what a register that cannot hold a boundary holds, are
the model's (log 10). -/
def Obligations.DirectionFlipsOnlyAtABoundary : Prop :=
  ∀ s : State, s.blk.halted = false →
    (∃ t, exec .rampAdvV1 s = .next t ∧ (t.blk.rampDir ≠ s.blk.rampDir →
      (t.blk.rampDir = .dec ∧ s.cfg.holds s.cfg.v1Max t.blk.rampV ∧ s.blk.rampV + s.cfg.step > s.cfg.v1Max) ∨
      (t.blk.rampDir = .inc ∧ s.cfg.holds s.cfg.v1Min t.blk.rampV ∧
        s.blk.rampV < s.cfg.v1Min + s.cfg.step))) ∧
    (∃ t, exec .rampAdvV2 s = .next t ∧ (t.blk.rampDir ≠ s.blk.rampDir →
      (t.blk.rampDir = .dec ∧ s.cfg.holds s.cfg.v2Top t.blk.rampV ∧ s.blk.rampV + s.cfg.step > s.cfg.v2Top) ∨
      (t.blk.rampDir = .inc ∧ s.cfg.holds (s.cfg.v2Top - s.cfg.depth) t.blk.rampV ∧
        s.blk.rampV < s.cfg.v2Top - s.cfg.depth + s.cfg.step)))

/-- R145: a tick that is not halted advances the ramp exactly once, the same in every mode and on every byte. -/
def Obligations.EveryTickAdvancesTheRampOnce : Prop :=
  ∀ (s : State) (m : Mode) (r : Option Byte), s.blk.halted = false → s.inp.fatal = false →
    ∃ t u v, exec .tick s = .next t ∧
      exec (match s.cfg.variant with | .v1 => .rampAdvV1 | .v2 => .rampAdvV2) s = .next u ∧
      exec .tick { s with blk := { s.blk with mode := m }, inp := { s.inp with rx := r } } = .next v ∧
      t.blk.rampV = u.blk.rampV ∧ t.blk.rampDir = u.blk.rampDir ∧
      v.blk.rampV = u.blk.rampV ∧ v.blk.rampDir = u.blk.rampDir

/-! ## The duty mux -/

/-- 43_output_mapper.md, MUX_V1_STARTONLY: channel 1 at `SO_DUTY1`, channel 2 at `SO_BASE` plus the floor of r /
`SO_DIV`; with the source values 0, and from 125 to 252. That a register of `VAL_W` bits that cannot hold a value holds
some value of its width is the model's choice (log 10). -/
def Obligations.StartOnlyDuties : Prop :=
  (∀ x : Ctx, x.variant = .v1 → x.mode = .startOnly → decode x (.phase3 0b101) = .ok .muxV1StartOnly) ∧
  ∀ s : State, s.blk.halted = false →
    ∃ d1 d2, exec .muxV1StartOnly s = .next (s.withDuties d1 d2) ∧ s.cfg.holds s.cfg.soDuty1 d1 ∧
      s.cfg.holds (s.cfg.soBase + s.blk.rampV / s.cfg.soDiv) d2 ∧
      (s.cfg = Config.v1 → s.blk.rampV ≤ s.cfg.regMax →
        d1 = 0 ∧ d2 = 125 + s.blk.rampV / 2 ∧ 125 ≤ d2 ∧ d2 ≤ 252)

/-- 43_output_mapper.md, MUX_V1_ON: both channels at `ON_BASE` plus the floor of r / `ON_DIV`; with the source values
from 4 to 29. That a register of `VAL_W` bits that cannot hold a value holds some value of its width is the model's
choice (log 10). -/
def Obligations.OnDuties : Prop :=
  (∀ x : Ctx, x.variant = .v1 → x.mode = .on → decode x (.phase3 0b101) = .ok .muxV1On) ∧
  ∀ s : State, s.blk.halted = false →
    ∃ d, exec .muxV1On s = .next (s.withDuties d d) ∧
      s.cfg.holds (s.cfg.onBase + s.blk.rampV / s.cfg.onDiv) d ∧
      (s.cfg = Config.v1 → s.blk.rampV ≤ s.cfg.regMax → d = 4 + s.blk.rampV / 10 ∧ 4 ≤ d ∧ d ≤ 29)

/-- 43_output_mapper.md, MUX_V1_OFF: both channels at `OFF_DUTY`, whatever the ramp value; the tick still advances the
ramp, so the duties do not stop it. That a register of `VAL_W` bits that cannot hold a value holds some value of its
width is the model's choice (log 10). -/
def Obligations.OffDuties : Prop :=
  (∀ x : Ctx, x.variant = .v1 → x.mode = .off → decode x (.phase3 0b101) = .ok .muxV1Off) ∧
  (∀ s : State, s.blk.halted = false →
    ∃ d, exec .muxV1Off s = .next (s.withDuties d d) ∧ s.cfg.holds s.cfg.offDuty d ∧
      (s.cfg = Config.v1 → d = 4)) ∧
  (∀ s : State, s.blk.halted = false → s.inp.fatal = false → s.cfg.variant = .v1 → s.blk.mode = .off →
    ∃ t u, exec .tick s = .next t ∧ exec .rampAdvV1 s = .next u ∧ t.blk.rampV = u.blk.rampV ∧
      t.blk.rampDir = u.blk.rampDir)

/-- R163: MUX_V2: both channels at the ramp value; in a tick, the value from before its advance, so after one tick
the duties of every later tick lie in the bounds. -/
def Obligations.VariantTwoDuties : Prop :=
  (∀ x : Ctx, x.variant = .v2 → decode x (.phase3 0b101) = .ok .muxV2) ∧
  (∀ s : State, s.blk.halted = false → exec .muxV2 s = .next (s.withDuties s.blk.rampV s.blk.rampV)) ∧
  (∀ s : State, s.blk.halted = false → s.inp.fatal = false → s.cfg.variant = .v2 →
    ∃ t, exec .tick s = .next t ∧ t.blk.duty1 = some s.blk.rampV ∧ t.blk.duty2 = some s.blk.rampV) ∧
  (∀ (s : State) (x : Inputs), s.cfg.v2Top ≤ s.cfg.regMax → s.blk.halted = false → s.inp.fatal = false →
    s.cfg.variant = .v2 → x.fatal = false →
    ∃ t u d, exec .tick s = .next t ∧ exec .tick { t with inp := x } = .next u ∧ u.blk.duty1 = some d ∧
      u.blk.duty2 = some d ∧ s.cfg.v2Top - s.cfg.depth ≤ d ∧ d ≤ s.cfg.v2Top)

/-- R167: a tick that is not halted writes both duty registers, one write each, even where the value does not change;
no operation but the mux writes them. -/
def Obligations.EveryTickWritesBothDuties : Prop :=
  (∀ s : State, s.blk.halted = false → s.inp.fatal = false →
    ∃ t d1 d2, exec .tick s = .next t ∧
      { channel := .one, value := d1 } ∈ t.pwm ∧ { channel := .two, value := d2 } ∈ t.pwm ∧ t.pwm.length = 2 ∧
      t.blk.duty1 = some d1 ∧ t.blk.duty2 = some d2) ∧
  (∀ (i : Instr) (s t : State), exec i s = .next t → i ≠ .muxV1StartOnly → i ≠ .muxV1On → i ≠ .muxV1Off →
    i ≠ .muxV2 → i ≠ .tick → t.blk.duty1 = s.blk.duty1 ∧ t.blk.duty2 = s.blk.duty2 ∧ t.pwm = s.pwm)

/-- 10_state.md sections 5 and 8 (derived there): a duty register that has been written stays written over every step
that is not a reset. -/
def Obligations.WrittenDutyStaysWritten : Prop :=
  ∀ (s t : State) (c : Chan), s.nextWork.isReset = false → (s.blk.duty c).isSome → step s = .next t →
    (t.blk.duty c).isSome

/-- 60_exceptions.md section 2 (decision D17) and log 7: a pin stands for its duty register while the block is not
halted, and for any value while it is; so after a tick it shows what that tick wrote to its channel. -/
def Obligations.PwmPinsShowTheDuty : Prop :=
  (∀ (s : State) (c : Chan) (k : Nat), s.blk.halted = false → s.pwmPins c k = s.dutyPort c k) ∧
  (∀ (s : State) (c : Chan) (k : Nat), s.blk.halted = true → s.pwmPins c k = Config.freePwm c k) ∧
  (∀ s : State, s.blk.halted = false → s.inp.fatal = false → ∃ t, exec .tick s = .next t ∧
    ∀ w ∈ t.pwm, ∀ k, t.pwmPins w.channel k = w.value)

/-- 43_output_mapper.md, read order (derived there): the duties of a tick use the mode that its own command wrote and
the ramp value from before its own advance. What a register of `VAL_W` bits holds, where the value is not one of its
width, is the model's choice (log 10). -/
def Obligations.DutiesUseTheNewModeAndTheOldRamp : Prop :=
  ∀ s : State, s.blk.halted = false → s.inp.fatal = false → s.cfg.variant = .v1 →
    ∃ t d1 d2, exec .tick s = .next t ∧ t.blk.duty1 = some d1 ∧ t.blk.duty2 = some d2 ∧
      t.blk.mode = (slotMode s.inp.rx).getD s.blk.mode ∧
      (t.blk.mode = .startOnly → s.cfg.holds s.cfg.soDuty1 d1 ∧
        s.cfg.holds (s.cfg.soBase + s.blk.rampV / s.cfg.soDiv) d2) ∧
      (t.blk.mode = .on → s.cfg.holds (s.cfg.onBase + s.blk.rampV / s.cfg.onDiv) d1 ∧ d2 = d1) ∧
      (t.blk.mode = .off → s.cfg.holds s.cfg.offDuty d1 ∧ d2 = d1)

/-- 20_memory.md sections 3 and 5: while a tick goes from `s` to `t`, after any number of its duty writes the carrier
sees of each register its old or its new value. -/
def Obligations.CarrierSeesOldOrNewDuty : Prop :=
  ∀ s : State, s.blk.halted = false → s.inp.fatal = false → ∃ t, exec .tick s = .next t ∧
    (∀ (n k : Nat) (c : Chan),
      carrierMaySee s t c k ((s.setBlk (applyWrites (t.pwm.take n) s.blk)).dutyPort c k)) ∧
    (∀ c, (applyWrites t.pwm s.blk).duty c = t.blk.duty c)

/-! ## The tick -/

/-- R183: SLEEP changes nothing: the outputs hold and no input is sampled. -/
def Obligations.SleepHoldsEverything : Prop :=
  (∀ x : Ctx, decode x (.phase3 0b111) = .ok .sleep) ∧ ∀ s : State, exec .sleep s = .next s

/-- R182: a tick is the operations that the phase codes 1 to 7 select, one phase after another, each selected and run
in the state that the earlier ones left. -/
def Obligations.TickRunsThePhasesInOrder : Prop :=
  ∀ s : State, s.blk.halted = false → s.inp.fatal = false →
    exec .tick s = runPhases [0b001, 0b010, 0b011, 0b100, 0b101, 0b110, 0b111]
      { s with tx := [], pwm := [], edge1 := .none, edge2 := .none }

/-- 44_main_loop.md, TICK: a tick that is neither halted nor fatal completes, is not halted after it, has sampled
both pins, and in variant 1 has taken the byte; it leaves the configuration, the pins and what is placed. -/
def Obligations.TickCompletesAndKeepsItsFrame : Prop :=
  (∀ x : Ctx, decode x (.phases 0b111_110_101_100_011_010_001) = .ok .tick) ∧
  ∀ s : State, s.blk.halted = false → s.inp.fatal = false → ∃ t, exec .tick s = .next t ∧
    t.blk.halted = false ∧ t.samp1 = s.inp.pin1 ∧ t.samp2 = s.inp.pin2 ∧ t.cfg = s.cfg ∧ t.pending = s.pending ∧
    t.draws = s.draws ∧ t.inp.pin1 = s.inp.pin1 ∧ t.inp.pin2 = s.inp.pin2 ∧ t.inp.fatal = false ∧
    (s.cfg.variant = .v1 → t.inp.rx = none) ∧ (s.cfg.variant = .v2 → t.inp.rx = s.inp.rx)

/-- R200: no operation of the block raises an exception: each answers a next state, in every state, and there is no
cause to record. -/
def Obligations.NoOperationRaisesAnException : Prop :=
  (∀ (i : Instr) (s : State), ∃ t, exec i s = .next t) ∧ IsEmpty Fault

/-- 10_state.md sections 2 to 6, who writes what: each part of the state is changed only by the operations named for
it, and by the tick that runs them. -/
def Obligations.EachRegisterHasItsOwnWriters : Prop :=
  ∀ (i : Instr) (s t : State), exec i s = .next t → i ≠ .tick →
    (i ≠ .debUpdate → t.blk.hist1 = s.blk.hist1 ∧ t.blk.hist2 = s.blk.hist2 ∧ t.blk.stable1 = s.blk.stable1 ∧
      t.blk.stable2 = s.blk.stable2 ∧ t.edge1 = s.edge1 ∧ t.edge2 = s.edge2) ∧
    (i ≠ .rampAdvV1 → i ≠ .rampAdvV2 → t.blk.rampV = s.blk.rampV ∧ t.blk.rampDir = s.blk.rampDir) ∧
    (i ≠ .cmdS → i ≠ .cmdN → i ≠ .cmdB → t.blk.mode = s.blk.mode) ∧
    (i ≠ .halt → t.blk.halted = s.blk.halted) ∧
    (i ≠ .sample → t.samp1 = s.samp1 ∧ t.samp2 = s.samp2) ∧
    (i ≠ .rptBtn1 → i ≠ .rptBtn2 → t.tx = s.tx) ∧
    (i ≠ .muxV1StartOnly → i ≠ .muxV1On → i ≠ .muxV1Off → i ≠ .muxV2 →
      t.blk.duty1 = s.blk.duty1 ∧ t.blk.duty2 = s.blk.duty2 ∧ t.pwm = s.pwm) ∧
    (i ≠ .cmdS → i ≠ .cmdN → i ≠ .cmdB → (∀ b, i ≠ .cmdOther b) → t.inp.rx = s.inp.rx) ∧
    (t.cfg = s.cfg ∧ t.pending = s.pending ∧ t.draws = s.draws ∧ t.inp.pin1 = s.inp.pin1 ∧
      t.inp.pin2 = s.inp.pin2 ∧ t.inp.fatal = s.inp.fatal)

/-- 10_state.md sections 1 and 7, 44_main_loop.md's observation (decision D19; log 25): the block state and the inputs
decide what a tick does, and so the whole observation of a run; the samples, edge results and outputs that stand from
an earlier tick are not state. The observation of placed ticks has one entry for each, that of the state after it. -/
def Obligations.TickReadsOnlyBlockAndInputs : Prop :=
  (∀ s u : State, s.cfg = u.cfg → s.blk = u.blk → s.inp = u.inp →
    ∃ t v, exec .tick s = .next t ∧ exec .tick u = .next v ∧ t.blk = v.blk ∧ t.obs = v.obs ∧ t.pwm = v.pwm) ∧
  (∀ (s u : State) (xs : List Stim), s.cfg = u.cfg → s.blk = u.blk →
    observation xs.length (s.placing xs) = observation xs.length (u.placing xs)) ∧
  (∀ (s : State) (is : List Inputs), s.cfg.wf = true →
    (observation is.length (s.placing (is.map .tick))).length = is.length ∧
    ∀ n < is.length, ∃ t, runTicks (is.take (n + 1)) s = .next t ∧
      (observation is.length (s.placing (is.map .tick)))[n]? = some t.obs)

/-- R109: the pins, histories and stable levels change nothing but the debouncers and the reports: mode, ramp and
duty values after a tick are the same whatever they are, and an edge goes only to the report phase: a Falling edge
emits its frame and a Rising edge emits nothing. -/
def Obligations.EdgesReachNoOtherState : Prop :=
  ∀ s u : State, s.blk.halted = false → u.blk.halted = false → s.inp.fatal = false → u.inp.fatal = false →
    s.cfg = u.cfg → s.blk.rampV = u.blk.rampV → s.blk.rampDir = u.blk.rampDir → s.blk.mode = u.blk.mode →
    s.inp.rx = u.inp.rx →
    ∃ t v, exec .tick s = .next t ∧ exec .tick u = .next v ∧ t.blk.rampV = v.blk.rampV ∧
      t.blk.rampDir = v.blk.rampDir ∧ t.blk.mode = v.blk.mode ∧ t.blk.duty1 = v.blk.duty1 ∧
      t.blk.duty2 = v.blk.duty2 ∧ t.pwm = v.pwm ∧ t.blk.halted = v.blk.halted ∧
      (t.edge1 = .falling → (s.cfg.tag1 :: s.cfg.lineTerm) <:+: t.tx) ∧
      (t.edge2 = .falling → (s.cfg.tag2 :: s.cfg.lineTerm) <:+: t.tx) ∧
      t.tx.length = (if t.edge1 = .falling then 1 + s.cfg.lineTerm.length else 0) +
        (if t.edge2 = .falling then 1 + s.cfg.lineTerm.length else 0)

/-! ## The machine -/

/-- 00_scope.md section 3: no parameter changes while the block runs. -/
def Obligations.NoStepChangesTheConfiguration : Prop :=
  ∀ s t : State, step s = .next t → t.cfg = s.cfg

/-- 00_scope.md section 3 (decision D25), with the tags of 41_command_protocol.md (decision D11) and the reset states
of 10_state.md section 9 (derived there): the configurations that break a constraint are refused. That no others are, no
value of `VAL_W`, `V1_MIN` or `V1_MAX` among them, is the model's choice (log 10). -/
def Obligations.BrokenConfigurationIsRefused : Prop :=
  ∀ s : State, step s = .refused .badConfig ↔
    (s.cfg.step < 1 ∨ 255 < s.cfg.step ∨ s.cfg.v2Top < s.cfg.depth ∨ 255 < s.cfg.v2Top ∨ s.cfg.soDiv < 1 ∨
      s.cfg.onDiv < 1 ∨ 255 < s.cfg.soBase + 255 / s.cfg.soDiv ∨ 255 < s.cfg.onBase + 255 / s.cfg.onDiv ∨
      255 < s.cfg.offDuty ∨ 255 < s.cfg.soDuty1 ∨ s.cfg.histDepth ≠ 16 ∨ s.cfg.tag1 = s.cfg.tag2 ∨
      ∃ k < 16, s.cfg.histInit.getLsbD k ≠ s.cfg.stableInit)

/-- 10_state.md section 8 (derived there): every step keeps the invariant. That the values fit `VAL_W` bits, and that
the variant 2 bounds are kept only where those can hold them, follow the model's log 10. -/
def Obligations.EveryStepKeepsTheInvariant : Prop :=
  ∀ s t : State, s.Inv → step s = .next t → t.Inv

/-- 10_state.md sections 8 and 9: in every admitted configuration the state after reset meets the invariant, an initial
ramp value that its register cannot hold as log 10 has it. -/
def Obligations.ResetMeetsTheInvariant : Prop :=
  (∀ c : Config, c.wf = true → (State.resetOf c).Inv) ∧ State.reset.Inv

/-- 30_encoding.md section 6 and log 3: where a lone code decodes to one operation, the step is exactly exec of it in
the state that presents its operand, with the code taken from the queue. -/
def Obligations.StepRunsTheDecodedOperation : Prop :=
  ∀ (s : State) (c : Code) (rest : List Work) (i : Instr), s.cfg.wf = true → s.pending = .op c :: rest →
    decode ({ s with pending := rest }.present c).ctx c = .ok i →
    step s = exec i ({ s with pending := rest }.present c)

/-- 20_memory.md section 2 and log 2: a placed tick is TICK with its inputs; where nothing is placed the step is
that of the next free stimulus, whatever it is. -/
def Obligations.StepRunsTheNextStimulus : Prop :=
  (∀ (s : State) (i : Inputs) (rest : List Work), s.cfg.wf = true → s.pending = .stim (.tick i) :: rest →
    step s = exec .tick { s with inp := i, pending := rest }) ∧
  (∀ s : State, s.cfg.wf = true → s.pending = [] →
    step s = step { s with pending := [.stim (Config.freeStim s.draws)], draws := s.draws + 1 })

/-! ## The encodings -/

/-- 30_encoding.md sections 2, 3 and 6: every well-formed operation, in every context that can select it, decodes from
its own code, with every byte its operand can hold. -/
def Obligations.DecodeOfEncodeIsTheOperation : Prop :=
  ∀ (x : Ctx) (i : Instr), i.wf = true → i.inVariant x.variant = true → i.inMode x.mode = true →
    x.tag1 ≠ x.tag2 → decode x (encode x i) = .ok i

/-- 30_encoding.md sections 2, 3 and 6: no two codes decode to one operation, and what is decoded is well formed and
selectable. -/
def Obligations.EncodeOfDecodeIsTheCode : Prop :=
  ∀ (x : Ctx) (c : Code) (i : Instr), decode x c = .ok i →
    encode x i = c ∧ i.wf = true ∧ i.inVariant x.variant = true ∧ i.inMode x.mode = true

/-- opcode_table.json: words of its rows, one or more of each format, in the default configuration after reset. -/
def Obligations.TableWordsDecodeAsTabled : Prop :=
  decodeTableWord 8 0b001 = some .sample ∧ decodeTableWord 8 0b010 = some .debUpdate ∧
  decodeTableWord 8 0b01101110 = some .rptBtn1 ∧ decodeTableWord 8 0b01110000 = some .rptBtn2 ∧
  decodeTableWord 16 0b1_01110011 = some .cmdS ∧ decodeTableWord 16 0b1_01101110 = some .cmdN ∧
  decodeTableWord 16 0b1_01100010 = some .cmdB ∧ decodeTableWord 16 0b0_00000000 = some .rxNone ∧
  decodeTableWord 16 0b1_01111000 = some (.cmdOther 0x78) ∧ decodeTableWord 8 0b101 = some .muxV1StartOnly ∧
  decodeTableWord 8 0b110 = some .rampAdvV1 ∧ decodeTableWord 8 0b111 = some .sleep ∧
  decodeTableWord 16 0b0_01110011 = none ∧ decodeTableWord 8 0b000 = none

/-- 30_encoding.md section 3 (decision D10 leaves `LINE_TERM` open): a report's frame is its tag and then `LINE_TERM`,
1 + length(`LINE_TERM`) bytes; it decodes to that report, and no other byte list does. -/
def Obligations.FramesRoundTrip : Prop :=
  ∀ (c : Config), c.tag1 ≠ c.tag2 →
    (∀ i bs, encodeFrame c i = some bs → decodeFrame c bs = .ok i ∧ bs.length = 1 + c.lineTerm.length) ∧
    (∀ i bs, decodeFrame c bs = .ok i → encodeFrame c i = some bs)

/-- 30_encoding.md section 4, stim11 (decision D20): the word of a tick's inputs gives them back, and a word is
refused exactly when its receive slot is not legal. -/
def Obligations.StimulusWordsRoundTrip : Prop :=
  (∀ i : Inputs, i.fatal = false → decodeStim11 (encodeStim11 i) = some i) ∧
  (∀ (w : BitVec 11) (i : Inputs), decodeStim11 w = some i → encodeStim11 i = w ∧ i.fatal = false) ∧
  (∀ w : BitVec 11, decodeStim11 w = none ↔ w.getLsbD 8 = false ∧ w.setWidth 8 ≠ (0 : BitVec 8))

/-- 93_implementation_defined.md section 2 (decision D24): the reserved words are refused by name, those of a lone
code (log 3) by the step. -/
def Obligations.ReservedWordsAreRefused : Prop :=
  decodeMode2 0b11 = .error .reservedMode ∧ decodeEdge2 0b11 = .error .reservedEdge ∧
  (∀ m, decodeMode2 (encodeMode2 m) = .ok m) ∧ (∀ e, decodeEdge2 (encodeEdge2 e) = .ok e) ∧
  (∀ d, decodeDir1 (encodeDir1 d) = d) ∧
  (∀ (s : State) (rest : List Work), s.cfg.wf = true → s.pending = .op (.phase3 0b000) :: rest →
    step s = .refused (.badCode .reservedPhase)) ∧
  (∀ (s : State) (w : BitVec 9) (rest : List Work), s.cfg.wf = true → w.getLsbD 8 = false → w ≠ 0 →
    s.pending = .op (.rxSlot w) :: rest → step s = .refused (.badCode .illegalRxSlot))
end

