-- ==== Sys2Proof/Laws/Data.lean ====
section
/-! SUPPORT. The spec lemmas of the shared data operations: the shift, the comparator, the ramp, the configuration, storing. -/

namespace Sys2Proof.Machine

/-! ## Storing a result -/

/-- A stored result is held: itself where it fits, else some value of the register (00_scope.md R9). -/
theorem store_holds (c : Config) (n : Nat) : c.holds n (c.store n) := by
  unfold Config.holds Config.store
  split
  · exact ⟨fun _ => rfl, by assumption⟩
  · exact ⟨fun _ => by contradiction, Nat.le_of_lt_succ (Nat.mod_lt _ (Nat.succ_pos _))⟩

/-- A result that fits is stored unchanged. -/
theorem store_eq {c : Config} {n : Nat} (h : n ≤ c.regMax) : c.store n = n :=
  (store_holds c n).1 h

/-- What is stored is a value of the register. -/
theorem store_le (c : Config) (n : Nat) : c.store n ≤ c.regMax :=
  (store_holds c n).2

/-- With the width of the source, the greatest value is 255. -/
theorem regMax_eight {c : Config} (h : c.valW = 8) : c.regMax = 255 := by
  simp [Config.regMax, h]

/-! ## The shift -/

theorem shiftIn_bit_zero (h : Hist) (p : Level) : (shiftIn h p).getLsbD 0 = p := by
  cases p <;> simp [shiftIn]

theorem shiftIn_bit_succ (h : Hist) (p : Level) {k : Nat} (hk : k < 15) :
    (shiftIn h p).getLsbD (k + 1) = h.getLsbD k := by
  cases p <;> simp [shiftIn] <;> omega

/-- A history is unanimous at a level exactly when each of its 16 bits is that level. -/
theorem hist_allOnes_iff (h : Hist) : h = 0xFFFF ↔ ∀ k < 16, h.getLsbD k = true := by
  constructor
  · rintro rfl; decide
  · intro H
    apply BitVec.eq_of_getLsbD_eq
    intro i hi
    rw [H i hi]
    revert i
    decide

theorem hist_zero_iff (h : Hist) : h = 0x0000 ↔ ∀ k < 16, h.getLsbD k = false := by
  constructor
  · rintro rfl; simp
  · intro H
    apply BitVec.eq_of_getLsbD_eq
    intro i hi
    simp [H i hi]

/-! ## The comparator -/

/-- Everything the comparator can answer: an edge to the unanimous level it did not hold, or nothing. -/
theorem comparator_cases (h : Hist) (l : Level) :
    (h = 0xFFFF ∧ l = false ∧ comparator h l = (true, .rising)) ∨
    (h = 0x0000 ∧ l = true ∧ comparator h l = (false, .falling)) ∨
    (¬(h = 0xFFFF ∧ l = false) ∧ ¬(h = 0x0000 ∧ l = true) ∧ comparator h l = (l, .none)) := by
  unfold comparator
  split
  · exact .inl ⟨by simp_all, by simp_all, rfl⟩
  · split
    · exact .inr (.inl ⟨by simp_all, by simp_all, rfl⟩)
    · exact .inr (.inr ⟨by assumption, by assumption, rfl⟩)

/-- After the comparator a unanimous history agrees with the stable level (10_state.md R33). -/
theorem comparator_agrees (h : Hist) (l : Level) : histAgrees h (comparator h l).1 := by
  rcases comparator_cases h l with ⟨rfl, rfl, e⟩ | ⟨rfl, rfl, e⟩ | ⟨n1, n2, e⟩ <;> rw [e]
  · exact ⟨fun _ => rfl, by decide⟩
  · exact ⟨by decide, fun _ => rfl⟩
  · exact ⟨fun hh => by simp_all, fun hh => by simp_all⟩

/-! ## The commands -/

theorem isCommand_eq_false_iff (b : Byte) : isCommand b = false ↔ b ≠ 0x73 ∧ b ≠ 0x6E ∧ b ≠ 0x62 := by
  show (b == 0x73 || b == 0x6E || b == 0x62) = false ↔ _
  rw [Bool.or_eq_false_iff, Bool.or_eq_false_iff, beq_eq_false_iff_ne, beq_eq_false_iff_ne, beq_eq_false_iff_ne,
    and_assoc]

/-- An unrecognised byte selects no mode (41_command_protocol.md R123). -/
theorem slotMode_other {b : Byte} (h : isCommand b = false) : slotMode (some b) = none := by
  obtain ⟨h1, h2, h3⟩ := (isCommand_eq_false_iff b).1 h
  simp only [slotMode, show b ≠ chS from h1, show b ≠ chN from h2, show b ≠ chB from h3, if_false]

/-! ## The configuration -/

/-- The admitted configurations, constraint by constraint (00_scope.md R7). -/
theorem wf_iff (c : Config) : c.wf = true ↔
    (1 ≤ c.step ∧ c.step ≤ 255) ∧ (c.depth ≤ c.v2Top ∧ c.v2Top ≤ 255) ∧ (1 ≤ c.soDiv ∧ 1 ≤ c.onDiv) ∧
    (c.soBase + 255 / c.soDiv ≤ 255 ∧ c.onBase + 255 / c.onDiv ≤ 255) ∧ (c.offDuty ≤ 255 ∧ c.soDuty1 ≤ 255) ∧
    c.histDepth = 16 ∧ c.tag1 ≠ c.tag2 ∧
    ((c.histInit = 0xFFFF ∧ c.stableInit = true) ∨ (c.histInit = 0x0000 ∧ c.stableInit = false)) := by
  simp only [Config.wf, Config.resetConsistent, Bool.and_eq_true, Bool.or_eq_true, decide_eq_true_eq, bne_iff_ne,
    beq_iff_eq, Bool.not_eq_true', ne_eq]
  tauto

/-- A quotient of a value up to 255 is at most that of 255, so the duty of an admitted configuration is at most 255
(00_scope.md R7). -/
theorem base_add_div_le {base d r : Nat} (h : base + 255 / d ≤ 255) (hr : r ≤ 255) : base + r / d ≤ 255 := by
  have := Nat.div_le_div_right (c := d) hr
  omega

/-! ## The ramp -/

/-- Everything RAMP_ADV_V1 can give (42_brightness_ramp.md R140). -/
theorem rampNextV1_cases (c : Config) (v : Nat) (d : Dir) :
    (d = .inc ∧ v + c.step > c.v1Max ∧ c.holds c.v1Max (rampNextV1 c v d).1 ∧ (rampNextV1 c v d).2 = .dec) ∨
    (d = .inc ∧ v + c.step ≤ c.v1Max ∧ c.holds (v + c.step) (rampNextV1 c v d).1
      ∧ (rampNextV1 c v d).2 = .inc) ∨
    (d = .dec ∧ v < c.v1Min + c.step ∧ c.holds c.v1Min (rampNextV1 c v d).1 ∧ (rampNextV1 c v d).2 = .inc) ∨
    (d = .dec ∧ c.v1Min + c.step ≤ v ∧ c.holds (v - c.step) (rampNextV1 c v d).1
      ∧ (rampNextV1 c v d).2 = .dec) := by
  cases d <;> simp only [rampNextV1, reduceCtorEq, false_and, true_and, false_or, or_false]
  · split
    · exact .inl ⟨by omega, store_holds _ _, rfl⟩
    · exact .inr ⟨by omega, store_holds _ _, rfl⟩
  · split
    · exact .inl ⟨by omega, store_holds _ _, rfl⟩
    · exact .inr ⟨by omega, store_holds _ _, rfl⟩

/-- Everything RAMP_ADV_V2 can give (42_brightness_ramp.md R141). -/
theorem rampNextV2_cases (c : Config) (v : Nat) (d : Dir) :
    (c.v2Ub < v ∧ c.holds c.v2Ub (rampNextV2 c v d).1 ∧ (rampNextV2 c v d).2 = .dec) ∨
    (v < c.v2Lb ∧ c.holds c.v2Lb (rampNextV2 c v d).1 ∧ (rampNextV2 c v d).2 = .inc) ∨
    (c.inV2Range v ∧ d = .inc ∧ v + c.step > c.v2Ub ∧ c.holds c.v2Ub (rampNextV2 c v d).1
      ∧ (rampNextV2 c v d).2 = .dec) ∨
    (c.inV2Range v ∧ d = .inc ∧ v + c.step ≤ c.v2Ub ∧ c.holds (v + c.step) (rampNextV2 c v d).1
      ∧ (rampNextV2 c v d).2 = .inc) ∨
    (c.inV2Range v ∧ d = .dec ∧ v < c.v2Lb + c.step ∧ c.holds c.v2Lb (rampNextV2 c v d).1
      ∧ (rampNextV2 c v d).2 = .inc) ∨
    (c.inV2Range v ∧ d = .dec ∧ c.v2Lb + c.step ≤ v ∧ c.holds (v - c.step) (rampNextV2 c v d).1
      ∧ (rampNextV2 c v d).2 = .dec) := by
  unfold rampNextV2
  split
  · exact .inl ⟨by omega, store_holds _ _, rfl⟩
  · split
    · exact .inr (.inl ⟨by omega, store_holds _ _, rfl⟩)
    · have hr : c.inV2Range v := ⟨by omega, by omega⟩
      refine .inr (.inr ?_)
      cases d <;> simp only [reduceCtorEq, false_and, and_false, true_and, false_or, or_false]
      · split
        · exact .inl ⟨hr, by omega, store_holds _ _, rfl⟩
        · exact .inr ⟨hr, by omega, store_holds _ _, rfl⟩
      · split
        · exact .inl ⟨hr, by omega, store_holds _ _, rfl⟩
        · exact .inr ⟨hr, by omega, store_holds _ _, rfl⟩

/-- A ramp advance of either variant leaves a value that the register can hold. -/
theorem rampNextV1_le (c : Config) (v : Nat) (d : Dir) : (rampNextV1 c v d).1 ≤ c.regMax := by
  rcases rampNextV1_cases c v d with ⟨-, -, h, -⟩ | ⟨-, -, h, -⟩ | ⟨-, -, h, -⟩ | ⟨-, -, h, -⟩ <;> exact h.2

theorem rampNextV2_le (c : Config) (v : Nat) (d : Dir) : (rampNextV2 c v d).1 ≤ c.regMax := by
  rcases rampNextV2_cases c v d with ⟨-, h, -⟩ | ⟨-, h, -⟩ | ⟨-, -, -, h, -⟩ | ⟨-, -, -, h, -⟩ | ⟨-, -, -, h, -⟩ |
    ⟨-, -, -, h, -⟩ <;> exact h.2

/-- Where the bounds fit the register, an advance of variant 2 gives a value in them (42_brightness_ramp.md R146). -/
theorem rampNextV2_inRange {c : Config} (hf : c.v2Ub ≤ c.regMax) (v : Nat) (d : Dir) :
    c.inV2Range (rampNextV2 c v d).1 := by
  have hl : c.v2Lb ≤ c.v2Ub := Nat.sub_le _ _
  rcases rampNextV2_cases c v d with ⟨h, k, -⟩ | ⟨h, k, -⟩ | ⟨r, -, h, k, -⟩ | ⟨r, -, h, k, -⟩ | ⟨r, -, h, k, -⟩ |
    ⟨r, -, h, k, -⟩ <;> (try obtain ⟨r1, r2⟩ := r) <;> have k := k.1 (by omega) <;> constructor <;> omega

end Sys2Proof.Machine
end

