-- ==== Sys2Proof/Laws/State.lean ====
section
/-! SUPPORT. One lemma for each field of each update of the block and of the machine, so that no proof unfolds a
record update. -/

namespace Sys2Proof.Machine

/-! ### Block.setDeb_one -/

@[simp] theorem Block.setDeb_one_hist1 (b : Block) (h : Hist) (l : Level) : (b.setDeb .one h l).hist1 = h := rfl
@[simp] theorem Block.setDeb_one_hist2 (b : Block) (h : Hist) (l : Level) : (b.setDeb .one h l).hist2 = b.hist2 := rfl
@[simp] theorem Block.setDeb_one_stable1 (b : Block) (h : Hist) (l : Level) : (b.setDeb .one h l).stable1 = l := rfl
@[simp] theorem Block.setDeb_one_stable2 (b : Block) (h : Hist) (l : Level) : (b.setDeb .one h l).stable2 = b.stable2 := rfl
@[simp] theorem Block.setDeb_one_rampV (b : Block) (h : Hist) (l : Level) : (b.setDeb .one h l).rampV = b.rampV := rfl
@[simp] theorem Block.setDeb_one_rampDir (b : Block) (h : Hist) (l : Level) : (b.setDeb .one h l).rampDir = b.rampDir := rfl
@[simp] theorem Block.setDeb_one_mode (b : Block) (h : Hist) (l : Level) : (b.setDeb .one h l).mode = b.mode := rfl
@[simp] theorem Block.setDeb_one_duty1 (b : Block) (h : Hist) (l : Level) : (b.setDeb .one h l).duty1 = b.duty1 := rfl
@[simp] theorem Block.setDeb_one_duty2 (b : Block) (h : Hist) (l : Level) : (b.setDeb .one h l).duty2 = b.duty2 := rfl
@[simp] theorem Block.setDeb_one_halted (b : Block) (h : Hist) (l : Level) : (b.setDeb .one h l).halted = b.halted := rfl

/-! ### Block.setDeb_two -/

@[simp] theorem Block.setDeb_two_hist1 (b : Block) (h : Hist) (l : Level) : (b.setDeb .two h l).hist1 = b.hist1 := rfl
@[simp] theorem Block.setDeb_two_hist2 (b : Block) (h : Hist) (l : Level) : (b.setDeb .two h l).hist2 = h := rfl
@[simp] theorem Block.setDeb_two_stable1 (b : Block) (h : Hist) (l : Level) : (b.setDeb .two h l).stable1 = b.stable1 := rfl
@[simp] theorem Block.setDeb_two_stable2 (b : Block) (h : Hist) (l : Level) : (b.setDeb .two h l).stable2 = l := rfl
@[simp] theorem Block.setDeb_two_rampV (b : Block) (h : Hist) (l : Level) : (b.setDeb .two h l).rampV = b.rampV := rfl
@[simp] theorem Block.setDeb_two_rampDir (b : Block) (h : Hist) (l : Level) : (b.setDeb .two h l).rampDir = b.rampDir := rfl
@[simp] theorem Block.setDeb_two_mode (b : Block) (h : Hist) (l : Level) : (b.setDeb .two h l).mode = b.mode := rfl
@[simp] theorem Block.setDeb_two_duty1 (b : Block) (h : Hist) (l : Level) : (b.setDeb .two h l).duty1 = b.duty1 := rfl
@[simp] theorem Block.setDeb_two_duty2 (b : Block) (h : Hist) (l : Level) : (b.setDeb .two h l).duty2 = b.duty2 := rfl
@[simp] theorem Block.setDeb_two_halted (b : Block) (h : Hist) (l : Level) : (b.setDeb .two h l).halted = b.halted := rfl

/-! ### Block.setRamp -/

@[simp] theorem Block.setRamp_hist1 (b : Block) (v : Nat) (d : Dir) : (b.setRamp v d).hist1 = b.hist1 := rfl
@[simp] theorem Block.setRamp_hist2 (b : Block) (v : Nat) (d : Dir) : (b.setRamp v d).hist2 = b.hist2 := rfl
@[simp] theorem Block.setRamp_stable1 (b : Block) (v : Nat) (d : Dir) : (b.setRamp v d).stable1 = b.stable1 := rfl
@[simp] theorem Block.setRamp_stable2 (b : Block) (v : Nat) (d : Dir) : (b.setRamp v d).stable2 = b.stable2 := rfl
@[simp] theorem Block.setRamp_rampV (b : Block) (v : Nat) (d : Dir) : (b.setRamp v d).rampV = v := rfl
@[simp] theorem Block.setRamp_rampDir (b : Block) (v : Nat) (d : Dir) : (b.setRamp v d).rampDir = d := rfl
@[simp] theorem Block.setRamp_mode (b : Block) (v : Nat) (d : Dir) : (b.setRamp v d).mode = b.mode := rfl
@[simp] theorem Block.setRamp_duty1 (b : Block) (v : Nat) (d : Dir) : (b.setRamp v d).duty1 = b.duty1 := rfl
@[simp] theorem Block.setRamp_duty2 (b : Block) (v : Nat) (d : Dir) : (b.setRamp v d).duty2 = b.duty2 := rfl
@[simp] theorem Block.setRamp_halted (b : Block) (v : Nat) (d : Dir) : (b.setRamp v d).halted = b.halted := rfl

/-! ### Block.setMode -/

@[simp] theorem Block.setMode_hist1 (b : Block) (m : Mode) : (b.setMode m).hist1 = b.hist1 := rfl
@[simp] theorem Block.setMode_hist2 (b : Block) (m : Mode) : (b.setMode m).hist2 = b.hist2 := rfl
@[simp] theorem Block.setMode_stable1 (b : Block) (m : Mode) : (b.setMode m).stable1 = b.stable1 := rfl
@[simp] theorem Block.setMode_stable2 (b : Block) (m : Mode) : (b.setMode m).stable2 = b.stable2 := rfl
@[simp] theorem Block.setMode_rampV (b : Block) (m : Mode) : (b.setMode m).rampV = b.rampV := rfl
@[simp] theorem Block.setMode_rampDir (b : Block) (m : Mode) : (b.setMode m).rampDir = b.rampDir := rfl
@[simp] theorem Block.setMode_mode (b : Block) (m : Mode) : (b.setMode m).mode = m := rfl
@[simp] theorem Block.setMode_duty1 (b : Block) (m : Mode) : (b.setMode m).duty1 = b.duty1 := rfl
@[simp] theorem Block.setMode_duty2 (b : Block) (m : Mode) : (b.setMode m).duty2 = b.duty2 := rfl
@[simp] theorem Block.setMode_halted (b : Block) (m : Mode) : (b.setMode m).halted = b.halted := rfl

/-! ### Block.setDuty_one -/

@[simp] theorem Block.setDuty_one_hist1 (b : Block) (v : Nat) : (b.setDuty .one v).hist1 = b.hist1 := rfl
@[simp] theorem Block.setDuty_one_hist2 (b : Block) (v : Nat) : (b.setDuty .one v).hist2 = b.hist2 := rfl
@[simp] theorem Block.setDuty_one_stable1 (b : Block) (v : Nat) : (b.setDuty .one v).stable1 = b.stable1 := rfl
@[simp] theorem Block.setDuty_one_stable2 (b : Block) (v : Nat) : (b.setDuty .one v).stable2 = b.stable2 := rfl
@[simp] theorem Block.setDuty_one_rampV (b : Block) (v : Nat) : (b.setDuty .one v).rampV = b.rampV := rfl
@[simp] theorem Block.setDuty_one_rampDir (b : Block) (v : Nat) : (b.setDuty .one v).rampDir = b.rampDir := rfl
@[simp] theorem Block.setDuty_one_mode (b : Block) (v : Nat) : (b.setDuty .one v).mode = b.mode := rfl
@[simp] theorem Block.setDuty_one_duty1 (b : Block) (v : Nat) : (b.setDuty .one v).duty1 = some v := rfl
@[simp] theorem Block.setDuty_one_duty2 (b : Block) (v : Nat) : (b.setDuty .one v).duty2 = b.duty2 := rfl
@[simp] theorem Block.setDuty_one_halted (b : Block) (v : Nat) : (b.setDuty .one v).halted = b.halted := rfl

/-! ### Block.setDuty_two -/

@[simp] theorem Block.setDuty_two_hist1 (b : Block) (v : Nat) : (b.setDuty .two v).hist1 = b.hist1 := rfl
@[simp] theorem Block.setDuty_two_hist2 (b : Block) (v : Nat) : (b.setDuty .two v).hist2 = b.hist2 := rfl
@[simp] theorem Block.setDuty_two_stable1 (b : Block) (v : Nat) : (b.setDuty .two v).stable1 = b.stable1 := rfl
@[simp] theorem Block.setDuty_two_stable2 (b : Block) (v : Nat) : (b.setDuty .two v).stable2 = b.stable2 := rfl
@[simp] theorem Block.setDuty_two_rampV (b : Block) (v : Nat) : (b.setDuty .two v).rampV = b.rampV := rfl
@[simp] theorem Block.setDuty_two_rampDir (b : Block) (v : Nat) : (b.setDuty .two v).rampDir = b.rampDir := rfl
@[simp] theorem Block.setDuty_two_mode (b : Block) (v : Nat) : (b.setDuty .two v).mode = b.mode := rfl
@[simp] theorem Block.setDuty_two_duty1 (b : Block) (v : Nat) : (b.setDuty .two v).duty1 = b.duty1 := rfl
@[simp] theorem Block.setDuty_two_duty2 (b : Block) (v : Nat) : (b.setDuty .two v).duty2 = some v := rfl
@[simp] theorem Block.setDuty_two_halted (b : Block) (v : Nat) : (b.setDuty .two v).halted = b.halted := rfl

/-! ### Block.setHalted -/

@[simp] theorem Block.setHalted_hist1 (b : Block) : b.setHalted.hist1 = b.hist1 := rfl
@[simp] theorem Block.setHalted_hist2 (b : Block) : b.setHalted.hist2 = b.hist2 := rfl
@[simp] theorem Block.setHalted_stable1 (b : Block) : b.setHalted.stable1 = b.stable1 := rfl
@[simp] theorem Block.setHalted_stable2 (b : Block) : b.setHalted.stable2 = b.stable2 := rfl
@[simp] theorem Block.setHalted_rampV (b : Block) : b.setHalted.rampV = b.rampV := rfl
@[simp] theorem Block.setHalted_rampDir (b : Block) : b.setHalted.rampDir = b.rampDir := rfl
@[simp] theorem Block.setHalted_mode (b : Block) : b.setHalted.mode = b.mode := rfl
@[simp] theorem Block.setHalted_duty1 (b : Block) : b.setHalted.duty1 = b.duty1 := rfl
@[simp] theorem Block.setHalted_duty2 (b : Block) : b.setHalted.duty2 = b.duty2 := rfl
@[simp] theorem Block.setHalted_halted (b : Block) : b.setHalted.halted = true := rfl

/-! ### State.setBlk -/

@[simp] theorem State.setBlk_cfg (s : State) (b : Block) : (s.setBlk b).cfg = s.cfg := rfl
@[simp] theorem State.setBlk_blk (s : State) (b : Block) : (s.setBlk b).blk = b := rfl
@[simp] theorem State.setBlk_inp (s : State) (b : Block) : (s.setBlk b).inp = s.inp := rfl
@[simp] theorem State.setBlk_samp1 (s : State) (b : Block) : (s.setBlk b).samp1 = s.samp1 := rfl
@[simp] theorem State.setBlk_samp2 (s : State) (b : Block) : (s.setBlk b).samp2 = s.samp2 := rfl
@[simp] theorem State.setBlk_edge1 (s : State) (b : Block) : (s.setBlk b).edge1 = s.edge1 := rfl
@[simp] theorem State.setBlk_edge2 (s : State) (b : Block) : (s.setBlk b).edge2 = s.edge2 := rfl
@[simp] theorem State.setBlk_tx (s : State) (b : Block) : (s.setBlk b).tx = s.tx := rfl
@[simp] theorem State.setBlk_pwm (s : State) (b : Block) : (s.setBlk b).pwm = s.pwm := rfl
@[simp] theorem State.setBlk_pending (s : State) (b : Block) : (s.setBlk b).pending = s.pending := rfl
@[simp] theorem State.setBlk_draws (s : State) (b : Block) : (s.setBlk b).draws = s.draws := rfl

/-! ### State.setInputs -/

@[simp] theorem State.setInputs_cfg (s : State) (i : Inputs) : (s.setInputs i).cfg = s.cfg := rfl
@[simp] theorem State.setInputs_blk (s : State) (i : Inputs) : (s.setInputs i).blk = s.blk := rfl
@[simp] theorem State.setInputs_inp (s : State) (i : Inputs) : (s.setInputs i).inp = i := rfl
@[simp] theorem State.setInputs_samp1 (s : State) (i : Inputs) : (s.setInputs i).samp1 = s.samp1 := rfl
@[simp] theorem State.setInputs_samp2 (s : State) (i : Inputs) : (s.setInputs i).samp2 = s.samp2 := rfl
@[simp] theorem State.setInputs_edge1 (s : State) (i : Inputs) : (s.setInputs i).edge1 = s.edge1 := rfl
@[simp] theorem State.setInputs_edge2 (s : State) (i : Inputs) : (s.setInputs i).edge2 = s.edge2 := rfl
@[simp] theorem State.setInputs_tx (s : State) (i : Inputs) : (s.setInputs i).tx = s.tx := rfl
@[simp] theorem State.setInputs_pwm (s : State) (i : Inputs) : (s.setInputs i).pwm = s.pwm := rfl
@[simp] theorem State.setInputs_pending (s : State) (i : Inputs) : (s.setInputs i).pending = s.pending := rfl
@[simp] theorem State.setInputs_draws (s : State) (i : Inputs) : (s.setInputs i).draws = s.draws := rfl

/-! ### State.setRx -/

@[simp] theorem State.setRx_cfg (s : State) (r : Option Byte) : (s.setRx r).cfg = s.cfg := rfl
@[simp] theorem State.setRx_blk (s : State) (r : Option Byte) : (s.setRx r).blk = s.blk := rfl
@[simp] theorem State.setRx_inp (s : State) (r : Option Byte) : (s.setRx r).inp = { s.inp with rx := r } := rfl
@[simp] theorem State.setRx_samp1 (s : State) (r : Option Byte) : (s.setRx r).samp1 = s.samp1 := rfl
@[simp] theorem State.setRx_samp2 (s : State) (r : Option Byte) : (s.setRx r).samp2 = s.samp2 := rfl
@[simp] theorem State.setRx_edge1 (s : State) (r : Option Byte) : (s.setRx r).edge1 = s.edge1 := rfl
@[simp] theorem State.setRx_edge2 (s : State) (r : Option Byte) : (s.setRx r).edge2 = s.edge2 := rfl
@[simp] theorem State.setRx_tx (s : State) (r : Option Byte) : (s.setRx r).tx = s.tx := rfl
@[simp] theorem State.setRx_pwm (s : State) (r : Option Byte) : (s.setRx r).pwm = s.pwm := rfl
@[simp] theorem State.setRx_pending (s : State) (r : Option Byte) : (s.setRx r).pending = s.pending := rfl
@[simp] theorem State.setRx_draws (s : State) (r : Option Byte) : (s.setRx r).draws = s.draws := rfl

/-! ### State.setFatal -/

@[simp] theorem State.setFatal_cfg (s : State) (f : Bool) : (s.setFatal f).cfg = s.cfg := rfl
@[simp] theorem State.setFatal_blk (s : State) (f : Bool) : (s.setFatal f).blk = s.blk := rfl
@[simp] theorem State.setFatal_inp (s : State) (f : Bool) : (s.setFatal f).inp = { s.inp with fatal := f } := rfl
@[simp] theorem State.setFatal_samp1 (s : State) (f : Bool) : (s.setFatal f).samp1 = s.samp1 := rfl
@[simp] theorem State.setFatal_samp2 (s : State) (f : Bool) : (s.setFatal f).samp2 = s.samp2 := rfl
@[simp] theorem State.setFatal_edge1 (s : State) (f : Bool) : (s.setFatal f).edge1 = s.edge1 := rfl
@[simp] theorem State.setFatal_edge2 (s : State) (f : Bool) : (s.setFatal f).edge2 = s.edge2 := rfl
@[simp] theorem State.setFatal_tx (s : State) (f : Bool) : (s.setFatal f).tx = s.tx := rfl
@[simp] theorem State.setFatal_pwm (s : State) (f : Bool) : (s.setFatal f).pwm = s.pwm := rfl
@[simp] theorem State.setFatal_pending (s : State) (f : Bool) : (s.setFatal f).pending = s.pending := rfl
@[simp] theorem State.setFatal_draws (s : State) (f : Bool) : (s.setFatal f).draws = s.draws := rfl

/-! ### State.setSamples -/

@[simp] theorem State.setSamples_cfg (s : State) (p q : Level) : (s.setSamples p q).cfg = s.cfg := rfl
@[simp] theorem State.setSamples_blk (s : State) (p q : Level) : (s.setSamples p q).blk = s.blk := rfl
@[simp] theorem State.setSamples_inp (s : State) (p q : Level) : (s.setSamples p q).inp = s.inp := rfl
@[simp] theorem State.setSamples_samp1 (s : State) (p q : Level) : (s.setSamples p q).samp1 = p := rfl
@[simp] theorem State.setSamples_samp2 (s : State) (p q : Level) : (s.setSamples p q).samp2 = q := rfl
@[simp] theorem State.setSamples_edge1 (s : State) (p q : Level) : (s.setSamples p q).edge1 = s.edge1 := rfl
@[simp] theorem State.setSamples_edge2 (s : State) (p q : Level) : (s.setSamples p q).edge2 = s.edge2 := rfl
@[simp] theorem State.setSamples_tx (s : State) (p q : Level) : (s.setSamples p q).tx = s.tx := rfl
@[simp] theorem State.setSamples_pwm (s : State) (p q : Level) : (s.setSamples p q).pwm = s.pwm := rfl
@[simp] theorem State.setSamples_pending (s : State) (p q : Level) : (s.setSamples p q).pending = s.pending := rfl
@[simp] theorem State.setSamples_draws (s : State) (p q : Level) : (s.setSamples p q).draws = s.draws := rfl

/-! ### State.setEdge_one -/

@[simp] theorem State.setEdge_one_cfg (s : State) (e : Edge) : (s.setEdge .one e).cfg = s.cfg := rfl
@[simp] theorem State.setEdge_one_blk (s : State) (e : Edge) : (s.setEdge .one e).blk = s.blk := rfl
@[simp] theorem State.setEdge_one_inp (s : State) (e : Edge) : (s.setEdge .one e).inp = s.inp := rfl
@[simp] theorem State.setEdge_one_samp1 (s : State) (e : Edge) : (s.setEdge .one e).samp1 = s.samp1 := rfl
@[simp] theorem State.setEdge_one_samp2 (s : State) (e : Edge) : (s.setEdge .one e).samp2 = s.samp2 := rfl
@[simp] theorem State.setEdge_one_edge1 (s : State) (e : Edge) : (s.setEdge .one e).edge1 = e := rfl
@[simp] theorem State.setEdge_one_edge2 (s : State) (e : Edge) : (s.setEdge .one e).edge2 = s.edge2 := rfl
@[simp] theorem State.setEdge_one_tx (s : State) (e : Edge) : (s.setEdge .one e).tx = s.tx := rfl
@[simp] theorem State.setEdge_one_pwm (s : State) (e : Edge) : (s.setEdge .one e).pwm = s.pwm := rfl
@[simp] theorem State.setEdge_one_pending (s : State) (e : Edge) : (s.setEdge .one e).pending = s.pending := rfl
@[simp] theorem State.setEdge_one_draws (s : State) (e : Edge) : (s.setEdge .one e).draws = s.draws := rfl

/-! ### State.setEdge_two -/

@[simp] theorem State.setEdge_two_cfg (s : State) (e : Edge) : (s.setEdge .two e).cfg = s.cfg := rfl
@[simp] theorem State.setEdge_two_blk (s : State) (e : Edge) : (s.setEdge .two e).blk = s.blk := rfl
@[simp] theorem State.setEdge_two_inp (s : State) (e : Edge) : (s.setEdge .two e).inp = s.inp := rfl
@[simp] theorem State.setEdge_two_samp1 (s : State) (e : Edge) : (s.setEdge .two e).samp1 = s.samp1 := rfl
@[simp] theorem State.setEdge_two_samp2 (s : State) (e : Edge) : (s.setEdge .two e).samp2 = s.samp2 := rfl
@[simp] theorem State.setEdge_two_edge1 (s : State) (e : Edge) : (s.setEdge .two e).edge1 = s.edge1 := rfl
@[simp] theorem State.setEdge_two_edge2 (s : State) (e : Edge) : (s.setEdge .two e).edge2 = e := rfl
@[simp] theorem State.setEdge_two_tx (s : State) (e : Edge) : (s.setEdge .two e).tx = s.tx := rfl
@[simp] theorem State.setEdge_two_pwm (s : State) (e : Edge) : (s.setEdge .two e).pwm = s.pwm := rfl
@[simp] theorem State.setEdge_two_pending (s : State) (e : Edge) : (s.setEdge .two e).pending = s.pending := rfl
@[simp] theorem State.setEdge_two_draws (s : State) (e : Edge) : (s.setEdge .two e).draws = s.draws := rfl

/-! ### State.setOutputs -/

@[simp] theorem State.setOutputs_cfg (s : State) (tx : List Byte) (pwm : List PwmWrite) (e f : Edge) : (s.setOutputs tx pwm e f).cfg = s.cfg := rfl
@[simp] theorem State.setOutputs_blk (s : State) (tx : List Byte) (pwm : List PwmWrite) (e f : Edge) : (s.setOutputs tx pwm e f).blk = s.blk := rfl
@[simp] theorem State.setOutputs_inp (s : State) (tx : List Byte) (pwm : List PwmWrite) (e f : Edge) : (s.setOutputs tx pwm e f).inp = s.inp := rfl
@[simp] theorem State.setOutputs_samp1 (s : State) (tx : List Byte) (pwm : List PwmWrite) (e f : Edge) : (s.setOutputs tx pwm e f).samp1 = s.samp1 := rfl
@[simp] theorem State.setOutputs_samp2 (s : State) (tx : List Byte) (pwm : List PwmWrite) (e f : Edge) : (s.setOutputs tx pwm e f).samp2 = s.samp2 := rfl
@[simp] theorem State.setOutputs_edge1 (s : State) (tx : List Byte) (pwm : List PwmWrite) (e f : Edge) : (s.setOutputs tx pwm e f).edge1 = e := rfl
@[simp] theorem State.setOutputs_edge2 (s : State) (tx : List Byte) (pwm : List PwmWrite) (e f : Edge) : (s.setOutputs tx pwm e f).edge2 = f := rfl
@[simp] theorem State.setOutputs_tx (s : State) (tx : List Byte) (pwm : List PwmWrite) (e f : Edge) : (s.setOutputs tx pwm e f).tx = tx := rfl
@[simp] theorem State.setOutputs_pwm (s : State) (tx : List Byte) (pwm : List PwmWrite) (e f : Edge) : (s.setOutputs tx pwm e f).pwm = pwm := rfl
@[simp] theorem State.setOutputs_pending (s : State) (tx : List Byte) (pwm : List PwmWrite) (e f : Edge) : (s.setOutputs tx pwm e f).pending = s.pending := rfl
@[simp] theorem State.setOutputs_draws (s : State) (tx : List Byte) (pwm : List PwmWrite) (e f : Edge) : (s.setOutputs tx pwm e f).draws = s.draws := rfl

/-! ### State.setPending -/

@[simp] theorem State.setPending_cfg (s : State) (p : List Work) : (s.setPending p).cfg = s.cfg := rfl
@[simp] theorem State.setPending_blk (s : State) (p : List Work) : (s.setPending p).blk = s.blk := rfl
@[simp] theorem State.setPending_inp (s : State) (p : List Work) : (s.setPending p).inp = s.inp := rfl
@[simp] theorem State.setPending_samp1 (s : State) (p : List Work) : (s.setPending p).samp1 = s.samp1 := rfl
@[simp] theorem State.setPending_samp2 (s : State) (p : List Work) : (s.setPending p).samp2 = s.samp2 := rfl
@[simp] theorem State.setPending_edge1 (s : State) (p : List Work) : (s.setPending p).edge1 = s.edge1 := rfl
@[simp] theorem State.setPending_edge2 (s : State) (p : List Work) : (s.setPending p).edge2 = s.edge2 := rfl
@[simp] theorem State.setPending_tx (s : State) (p : List Work) : (s.setPending p).tx = s.tx := rfl
@[simp] theorem State.setPending_pwm (s : State) (p : List Work) : (s.setPending p).pwm = s.pwm := rfl
@[simp] theorem State.setPending_pending (s : State) (p : List Work) : (s.setPending p).pending = p := rfl
@[simp] theorem State.setPending_draws (s : State) (p : List Work) : (s.setPending p).draws = s.draws := rfl

/-! ### State.nextDraw -/

@[simp] theorem State.nextDraw_cfg (s : State) : s.nextDraw.cfg = s.cfg := rfl
@[simp] theorem State.nextDraw_blk (s : State) : s.nextDraw.blk = s.blk := rfl
@[simp] theorem State.nextDraw_inp (s : State) : s.nextDraw.inp = s.inp := rfl
@[simp] theorem State.nextDraw_samp1 (s : State) : s.nextDraw.samp1 = s.samp1 := rfl
@[simp] theorem State.nextDraw_samp2 (s : State) : s.nextDraw.samp2 = s.samp2 := rfl
@[simp] theorem State.nextDraw_edge1 (s : State) : s.nextDraw.edge1 = s.edge1 := rfl
@[simp] theorem State.nextDraw_edge2 (s : State) : s.nextDraw.edge2 = s.edge2 := rfl
@[simp] theorem State.nextDraw_tx (s : State) : s.nextDraw.tx = s.tx := rfl
@[simp] theorem State.nextDraw_pwm (s : State) : s.nextDraw.pwm = s.pwm := rfl
@[simp] theorem State.nextDraw_pending (s : State) : s.nextDraw.pending = s.pending := rfl
@[simp] theorem State.nextDraw_draws (s : State) : s.nextDraw.draws = s.draws + 1 := rfl

/-! ### State.txEmit -/

@[simp] theorem State.txEmit_cfg (s : State) (bs : List Byte) : (s.txEmit bs).cfg = s.cfg := rfl
@[simp] theorem State.txEmit_blk (s : State) (bs : List Byte) : (s.txEmit bs).blk = s.blk := rfl
@[simp] theorem State.txEmit_inp (s : State) (bs : List Byte) : (s.txEmit bs).inp = s.inp := rfl
@[simp] theorem State.txEmit_samp1 (s : State) (bs : List Byte) : (s.txEmit bs).samp1 = s.samp1 := rfl
@[simp] theorem State.txEmit_samp2 (s : State) (bs : List Byte) : (s.txEmit bs).samp2 = s.samp2 := rfl
@[simp] theorem State.txEmit_edge1 (s : State) (bs : List Byte) : (s.txEmit bs).edge1 = s.edge1 := rfl
@[simp] theorem State.txEmit_edge2 (s : State) (bs : List Byte) : (s.txEmit bs).edge2 = s.edge2 := rfl
@[simp] theorem State.txEmit_tx (s : State) (bs : List Byte) : (s.txEmit bs).tx = s.tx ++ bs := rfl
@[simp] theorem State.txEmit_pwm (s : State) (bs : List Byte) : (s.txEmit bs).pwm = s.pwm := rfl
@[simp] theorem State.txEmit_pending (s : State) (bs : List Byte) : (s.txEmit bs).pending = s.pending := rfl
@[simp] theorem State.txEmit_draws (s : State) (bs : List Byte) : (s.txEmit bs).draws = s.draws := rfl

/-! ### State.pwmWrite -/

@[simp] theorem State.pwmWrite_cfg (s : State) (c : Chan) (v : Nat) : (s.pwmWrite c v).cfg = s.cfg := rfl
@[simp] theorem State.pwmWrite_blk (s : State) (c : Chan) (v : Nat) : (s.pwmWrite c v).blk = s.blk.setDuty c v := rfl
@[simp] theorem State.pwmWrite_inp (s : State) (c : Chan) (v : Nat) : (s.pwmWrite c v).inp = s.inp := rfl
@[simp] theorem State.pwmWrite_samp1 (s : State) (c : Chan) (v : Nat) : (s.pwmWrite c v).samp1 = s.samp1 := rfl
@[simp] theorem State.pwmWrite_samp2 (s : State) (c : Chan) (v : Nat) : (s.pwmWrite c v).samp2 = s.samp2 := rfl
@[simp] theorem State.pwmWrite_edge1 (s : State) (c : Chan) (v : Nat) : (s.pwmWrite c v).edge1 = s.edge1 := rfl
@[simp] theorem State.pwmWrite_edge2 (s : State) (c : Chan) (v : Nat) : (s.pwmWrite c v).edge2 = s.edge2 := rfl
@[simp] theorem State.pwmWrite_tx (s : State) (c : Chan) (v : Nat) : (s.pwmWrite c v).tx = s.tx := rfl
@[simp] theorem State.pwmWrite_pwm (s : State) (c : Chan) (v : Nat) : (s.pwmWrite c v).pwm = s.pwm ++ [{ channel := c, value := v }] := rfl
@[simp] theorem State.pwmWrite_pending (s : State) (c : Chan) (v : Nat) : (s.pwmWrite c v).pending = s.pending := rfl
@[simp] theorem State.pwmWrite_draws (s : State) (c : Chan) (v : Nat) : (s.pwmWrite c v).draws = s.draws := rfl

/-! ### State.rxTaken -/

@[simp] theorem State.rxTaken_cfg (s : State) : s.rxTaken.cfg = s.cfg := rfl
@[simp] theorem State.rxTaken_blk (s : State) : s.rxTaken.blk = s.blk := rfl
@[simp] theorem State.rxTaken_inp (s : State) : s.rxTaken.inp = { s.inp with rx := none } := rfl
@[simp] theorem State.rxTaken_samp1 (s : State) : s.rxTaken.samp1 = s.samp1 := rfl
@[simp] theorem State.rxTaken_samp2 (s : State) : s.rxTaken.samp2 = s.samp2 := rfl
@[simp] theorem State.rxTaken_edge1 (s : State) : s.rxTaken.edge1 = s.edge1 := rfl
@[simp] theorem State.rxTaken_edge2 (s : State) : s.rxTaken.edge2 = s.edge2 := rfl
@[simp] theorem State.rxTaken_tx (s : State) : s.rxTaken.tx = s.tx := rfl
@[simp] theorem State.rxTaken_pwm (s : State) : s.rxTaken.pwm = s.pwm := rfl
@[simp] theorem State.rxTaken_pending (s : State) : s.rxTaken.pending = s.pending := rfl
@[simp] theorem State.rxTaken_draws (s : State) : s.rxTaken.draws = s.draws := rfl

/-! ### State.clearOutputs -/

@[simp] theorem State.clearOutputs_cfg (s : State) : s.clearOutputs.cfg = s.cfg := rfl
@[simp] theorem State.clearOutputs_blk (s : State) : s.clearOutputs.blk = s.blk := rfl
@[simp] theorem State.clearOutputs_inp (s : State) : s.clearOutputs.inp = s.inp := rfl
@[simp] theorem State.clearOutputs_samp1 (s : State) : s.clearOutputs.samp1 = s.samp1 := rfl
@[simp] theorem State.clearOutputs_samp2 (s : State) : s.clearOutputs.samp2 = s.samp2 := rfl
@[simp] theorem State.clearOutputs_edge1 (s : State) : s.clearOutputs.edge1 = .none := rfl
@[simp] theorem State.clearOutputs_edge2 (s : State) : s.clearOutputs.edge2 = .none := rfl
@[simp] theorem State.clearOutputs_tx (s : State) : s.clearOutputs.tx = [] := rfl
@[simp] theorem State.clearOutputs_pwm (s : State) : s.clearOutputs.pwm = [] := rfl
@[simp] theorem State.clearOutputs_pending (s : State) : s.clearOutputs.pending = s.pending := rfl
@[simp] theorem State.clearOutputs_draws (s : State) : s.clearOutputs.draws = s.draws := rfl

/-! ### State.enterHalt -/

@[simp] theorem State.enterHalt_cfg (s : State) : s.enterHalt.cfg = s.cfg := rfl
@[simp] theorem State.enterHalt_blk (s : State) : s.enterHalt.blk = s.blk.setHalted := rfl
@[simp] theorem State.enterHalt_inp (s : State) : s.enterHalt.inp = s.inp := rfl
@[simp] theorem State.enterHalt_samp1 (s : State) : s.enterHalt.samp1 = s.samp1 := rfl
@[simp] theorem State.enterHalt_samp2 (s : State) : s.enterHalt.samp2 = s.samp2 := rfl
@[simp] theorem State.enterHalt_edge1 (s : State) : s.enterHalt.edge1 = s.edge1 := rfl
@[simp] theorem State.enterHalt_edge2 (s : State) : s.enterHalt.edge2 = s.edge2 := rfl
@[simp] theorem State.enterHalt_tx (s : State) : s.enterHalt.tx = s.tx := rfl
@[simp] theorem State.enterHalt_pwm (s : State) : s.enterHalt.pwm = s.pwm := rfl
@[simp] theorem State.enterHalt_pending (s : State) : s.enterHalt.pending = s.pending := rfl
@[simp] theorem State.enterHalt_draws (s : State) : s.enterHalt.draws = s.draws := rfl

/-! ### State.restart -/

@[simp] theorem State.restart_cfg (s : State) : s.restart.cfg = s.cfg := rfl
@[simp] theorem State.restart_blk (s : State) : s.restart.blk = Block.reset s.cfg := rfl
@[simp] theorem State.restart_inp (s : State) : s.restart.inp = s.inp := rfl
@[simp] theorem State.restart_samp1 (s : State) : s.restart.samp1 = s.samp1 := rfl
@[simp] theorem State.restart_samp2 (s : State) : s.restart.samp2 = s.samp2 := rfl
@[simp] theorem State.restart_edge1 (s : State) : s.restart.edge1 = .none := rfl
@[simp] theorem State.restart_edge2 (s : State) : s.restart.edge2 = .none := rfl
@[simp] theorem State.restart_tx (s : State) : s.restart.tx = [] := rfl
@[simp] theorem State.restart_pwm (s : State) : s.restart.pwm = [] := rfl
@[simp] theorem State.restart_pending (s : State) : s.restart.pending = s.pending := rfl
@[simp] theorem State.restart_draws (s : State) : s.restart.draws = s.draws := rfl

/-! ### State.slept -/

@[simp] theorem State.slept_cfg (s : State) : s.slept.cfg = s.cfg := rfl
@[simp] theorem State.slept_blk (s : State) : s.slept.blk = s.blk := rfl
@[simp] theorem State.slept_inp (s : State) : s.slept.inp = s.inp := rfl
@[simp] theorem State.slept_samp1 (s : State) : s.slept.samp1 = s.samp1 := rfl
@[simp] theorem State.slept_samp2 (s : State) : s.slept.samp2 = s.samp2 := rfl
@[simp] theorem State.slept_edge1 (s : State) : s.slept.edge1 = s.edge1 := rfl
@[simp] theorem State.slept_edge2 (s : State) : s.slept.edge2 = s.edge2 := rfl
@[simp] theorem State.slept_tx (s : State) : s.slept.tx = s.tx := rfl
@[simp] theorem State.slept_pwm (s : State) : s.slept.pwm = s.pwm := rfl
@[simp] theorem State.slept_pending (s : State) : s.slept.pending = s.pending := rfl
@[simp] theorem State.slept_draws (s : State) : s.slept.draws = s.draws := rfl

@[simp] theorem Block.hist_one (b : Block) : b.hist .one = b.hist1 := rfl
@[simp] theorem Block.hist_two (b : Block) : b.hist .two = b.hist2 := rfl
@[simp] theorem Block.stable_one (b : Block) : b.stable .one = b.stable1 := rfl
@[simp] theorem Block.stable_two (b : Block) : b.stable .two = b.stable2 := rfl
@[simp] theorem Block.duty_one (b : Block) : b.duty .one = b.duty1 := rfl
@[simp] theorem Block.duty_two (b : Block) : b.duty .two = b.duty2 := rfl
@[simp] theorem State.sampled_one (s : State) : s.sampled .one = s.samp1 := rfl
@[simp] theorem State.sampled_two (s : State) : s.sampled .two = s.samp2 := rfl
@[simp] theorem State.edge_one (s : State) : s.edge .one = s.edge1 := rfl
@[simp] theorem State.edge_two (s : State) : s.edge .two = s.edge2 := rfl
@[simp] theorem State.samplePin_one (s : State) : s.samplePin .one = s.inp.pin1 := rfl
@[simp] theorem State.samplePin_two (s : State) : s.samplePin .two = s.inp.pin2 := rfl

end Sys2Proof.Machine
end

