-- ==== Sys2Proof/Laws/Exec.lean ====
section
/-! SUPPORT. What exec and step can do, said once. -/

namespace Sys2Proof.Machine

theorem whenRunning_running {f : State → State} {s : State} (h : s.blk.halted = false) :
    whenRunning f s = .next (f s) := by
  simp [whenRunning, h]

theorem whenRunning_halted {f : State → State} {s : State} (h : s.blk.halted = true) :
    whenRunning f s = .next s := by
  simp [whenRunning, h]

/-- What an operation does to a block that is not halted; TICK looks at `halted` itself. -/
def effect : Instr → State → State
  | .sample => sample
  | .debUpdate => debUpdate
  | .rptBtn1 => rptBtn1
  | .rptBtn2 => rptBtn2
  | .cmdS => cmdS
  | .cmdN => cmdN
  | .cmdB => cmdB
  | .rxNone => rxNone
  | .cmdOther b => cmdOther b
  | .muxV1StartOnly => muxV1StartOnly
  | .muxV1On => muxV1On
  | .muxV1Off => muxV1Off
  | .muxV2 => muxV2
  | .rampAdvV1 => rampAdvV1
  | .rampAdvV2 => rampAdvV2
  | .sleep => State.slept
  | .halt => haltOnFatal
  | .tick => tick

/-- In a running block every operation has exactly its effect. -/
theorem exec_running (i : Instr) {s : State} (h : s.blk.halted = false) : exec i s = .next (effect i s) := by
  cases i <;> first | exact whenRunning_running h | rfl

/-- In a halted block only TICK does anything: it clears the ports of the tick. -/
theorem exec_halted (i : Instr) {s : State} (h : s.blk.halted = true) :
    exec i s = .next (if i = .tick then s.clearOutputs else s) := by
  cases i <;> simp [exec, execTick, tick, whenRunning_halted h, h, execSample, execDebUpdate, execRptBtn1,
    execRptBtn2, execCmdS, execCmdN, execCmdB, execRxNone, execCmdOther, execMuxV1StartOnly, execMuxV1On,
    execMuxV1Off, execMuxV2, execRampAdvV1, execRampAdvV2, execSleep, execHalt]

/-! ## The parts of a tick -/

/-- The three ways a tick goes (44_main_loop.md R180). -/
theorem tick_cases (s : State) :
    (s.blk.halted = true ∧ tick s = s.clearOutputs) ∨
    (s.blk.halted = false ∧ s.inp.fatal = true ∧ tick s = s.clearOutputs.enterHalt) ∨
    (s.blk.halted = false ∧ s.inp.fatal = false ∧ tick s = phases s.clearOutputs) := by
  cases h : s.blk.halted <;> cases f : s.inp.fatal <;> simp [tick, h, f]

theorem tick_running {s : State} (h : s.blk.halted = false) (f : s.inp.fatal = false) :
    tick s = phases s.clearOutputs := by
  simp [tick, h, f]

/-- DEB_UPDATE writes both histories, both stable levels and both edges, and nothing else (40_debouncer.md R100). -/
theorem debUpdate_eq (s : State) : debUpdate s = { s with
    blk := { s.blk with
      hist1 := shiftIn s.blk.hist1 s.samp1
      hist2 := shiftIn s.blk.hist2 s.samp2
      stable1 := (comparator (shiftIn s.blk.hist1 s.samp1) s.blk.stable1).1
      stable2 := (comparator (shiftIn s.blk.hist2 s.samp2) s.blk.stable2).1 }
    edge1 := (comparator (shiftIn s.blk.hist1 s.samp1) s.blk.stable1).2
    edge2 := (comparator (shiftIn s.blk.hist2 s.samp2) s.blk.stable2).2 } := rfl

/-- A report adds at most one frame to `tx` and changes nothing else (41_command_protocol.md R127). -/
theorem report_eq (i : Chan) (tag : Byte) (s : State) : report i tag s =
    { s with tx := s.tx ++ (if s.edge i = .falling then tag :: s.cfg.lineTerm else []) } := by
  unfold report
  split <;> simp [State.txEmit, frame]

/-- A MUX operation writes both duty registers and records the two writes (43_output_mapper.md). -/
theorem writeDuties_eq (d1 d2 : Nat) (s : State) : writeDuties d1 d2 s = s.withDuties d1 d2 := by
  simp [writeDuties, State.pwmWrite, State.withDuties, Block.setDuty]

/-- Phase 4 takes the byte in variant 1 and writes the mode that the slot selects (41_command_protocol.md). -/
theorem commandPhase_eq (s : State) : commandPhase s =
    match s.cfg.variant with
    | .v1 => { s with inp := { s.inp with rx := none }, blk := { s.blk with mode := (slotMode s.inp.rx).getD s.blk.mode } }
    | .v2 => s := by
  rcases s with ⟨cfg, blk, ⟨p1, p2, rx, fatal⟩, s1, s2, e1, e2, tx, pwm, pending, draws⟩
  unfold commandPhase
  cases hv : cfg.variant <;> simp only
  cases rx with
  | none => simp [rxNone, slotMode]
  | some b =>
    by_cases h1 : b = chS
    · simp [h1, cmdS, command, received, hv, State.rxTaken, State.setRx, State.setBlk, Block.setMode, slotMode]
    by_cases h2 : b = chN
    · simp [h2, cmdN, command, received, hv, State.rxTaken, State.setRx, State.setBlk, Block.setMode, slotMode,
        chS, chN]
    by_cases h3 : b = chB
    · simp [h3, cmdB, command, received, hv, State.rxTaken, State.setRx, State.setBlk, Block.setMode, slotMode,
        chS, chN, chB]
    · simp [h1, h2, h3, cmdOther, received, hv, isCommand, State.rxTaken, State.setRx, slotMode]

/-- The two duties that phase 5 writes (43_output_mapper.md R160 to R163). -/
def muxDuties (c : Config) (m : Mode) (r : Nat) : Nat × Nat :=
  match c.variant, m with
  | .v1, .startOnly => (c.store c.soDuty1, startOnlyDuty2 c r)
  | .v1, .on => (onDuty c r, onDuty c r)
  | .v1, .off => (c.store c.offDuty, c.store c.offDuty)
  | .v2, _ => (r, r)

theorem muxPhase_eq (s : State) : muxPhase s =
    s.withDuties (muxDuties s.cfg s.blk.mode s.blk.rampV).1 (muxDuties s.cfg s.blk.mode s.blk.rampV).2 := by
  unfold muxPhase muxDuties
  cases s.cfg.variant <;> cases s.blk.mode <;> exact writeDuties_eq _ _ s

/-- The value and direction that phase 6 writes (42_brightness_ramp.md R140, R141). -/
def rampNext (c : Config) (v : Nat) (d : Dir) : Nat × Dir :=
  match c.variant with
  | .v1 => rampNextV1 c v d
  | .v2 => rampNextV2 c v d

theorem rampPhase_eq (s : State) : rampPhase s =
    s.setBlk (s.blk.setRamp (rampNext s.cfg s.blk.rampV s.blk.rampDir).1
      (rampNext s.cfg s.blk.rampV s.blk.rampDir).2) := by
  unfold rampPhase rampNext
  cases s.cfg.variant <;> rfl

theorem exec_tick_running {s : State} (h : s.blk.halted = false) (f : s.inp.fatal = false) :
    exec .tick s = .next (phases s.clearOutputs) := by
  rw [exec_running _ h]
  simp [effect, tick_running h f]

/-- The mode after phase 4: in variant 1 what the receive slot selects (41_command_protocol.md). -/
def nextMode (s : State) : Mode :=
  match s.cfg.variant with
  | .v1 => (slotMode s.inp.rx).getD s.blk.mode
  | .v2 => s.blk.mode

/-- The receive slot after phase 4: taken in variant 1 (41_command_protocol.md R125). -/
def nextRx (s : State) : Option Byte :=
  match s.cfg.variant with
  | .v1 => none
  | .v2 => s.inp.rx

/-- Everything the seven phases do, field by field (44_main_loop.md R180). -/
theorem phases_eq (s : State) : phases s =
    let d1 := comparator (shiftIn s.blk.hist1 s.inp.pin1) s.blk.stable1
    let d2 := comparator (shiftIn s.blk.hist2 s.inp.pin2) s.blk.stable2
    let r := rampNext s.cfg s.blk.rampV s.blk.rampDir
    let du := muxDuties s.cfg (nextMode s) s.blk.rampV
    { s with
      samp1 := s.inp.pin1, samp2 := s.inp.pin2, edge1 := d1.2, edge2 := d2.2
      inp := { s.inp with rx := nextRx s }
      tx := s.tx ++ (if d1.2 = .falling then s.cfg.tag1 :: s.cfg.lineTerm else [])
        ++ (if d2.2 = .falling then s.cfg.tag2 :: s.cfg.lineTerm else [])
      pwm := s.pwm ++ [{ channel := .one, value := du.1 }, { channel := .two, value := du.2 }]
      blk := { s.blk with
        hist1 := shiftIn s.blk.hist1 s.inp.pin1, hist2 := shiftIn s.blk.hist2 s.inp.pin2
        stable1 := d1.1, stable2 := d2.1, mode := nextMode s, rampV := r.1, rampDir := r.2
        duty1 := some du.1, duty2 := some du.2 } } := by
  unfold phases
  rw [commandPhase_eq, muxPhase_eq, rampPhase_eq]
  simp only [rptBtn1, rptBtn2, report_eq, debUpdate_eq]
  cases hv : s.cfg.variant <;>
    simp [sample, State.setSamples, State.samplePin, State.setBlk, Block.setRamp, State.withDuties, hv, State.slept,
      State.edge, nextMode, nextRx] <;> rfl

end Sys2Proof.Machine
end

