-- ==== Sys2Proof/Laws/PerInstr.lean ====
section
/-! SUPPORT. Facts about every operation as syntax, one lemma for each constructor. -/

namespace Sys2Proof.Laws.EncodesNoReservedWord

/-- The encoder gives no reserved word: not the phase code 0b000, and no `rx_slot` word with v = 0 and a nonzero
byte (30_encoding.md R72, R85). -/
def Statement (i : Instr) : Prop :=
  ∀ x : Ctx, encode x i ≠ .phase3 0b000 ∧ ∀ w, encode x i = .rxSlot w → (decodeRxSlot w).isSome = true

theorem sample : Statement .sample := fun _ => ⟨by simp [encode], fun _ h => by cases h⟩
theorem debUpdate : Statement .debUpdate := fun _ => ⟨by simp [encode], fun _ h => by cases h⟩
theorem rptBtn1 : Statement .rptBtn1 := fun _ => ⟨by simp [encode], fun _ h => by cases h⟩
theorem rptBtn2 : Statement .rptBtn2 := fun _ => ⟨by simp [encode], fun _ h => by cases h⟩
theorem cmdS : Statement .cmdS := fun _ => ⟨by simp [encode], fun _ h => by cases h; rfl⟩
theorem cmdN : Statement .cmdN := fun _ => ⟨by simp [encode], fun _ h => by cases h; rfl⟩
theorem cmdB : Statement .cmdB := fun _ => ⟨by simp [encode], fun _ h => by cases h; rfl⟩
theorem rxNone : Statement .rxNone := fun _ => ⟨by simp [encode], fun _ h => by cases h; rfl⟩
theorem cmdOther (byte : Byte) : Statement (.cmdOther byte) :=
  fun _ => ⟨by simp [encode], fun _ h => by cases h; simp [decodeRxSlot]⟩
theorem muxV1StartOnly : Statement .muxV1StartOnly := fun _ => ⟨by simp [encode], fun _ h => by cases h⟩
theorem muxV1On : Statement .muxV1On := fun _ => ⟨by simp [encode], fun _ h => by cases h⟩
theorem muxV1Off : Statement .muxV1Off := fun _ => ⟨by simp [encode], fun _ h => by cases h⟩
theorem muxV2 : Statement .muxV2 := fun _ => ⟨by simp [encode], fun _ h => by cases h⟩
theorem rampAdvV1 : Statement .rampAdvV1 := fun _ => ⟨by simp [encode], fun _ h => by cases h⟩
theorem rampAdvV2 : Statement .rampAdvV2 := fun _ => ⟨by simp [encode], fun _ h => by cases h⟩
theorem sleep : Statement .sleep := fun _ => ⟨by simp [encode], fun _ h => by cases h⟩
theorem halt : Statement .halt := fun _ => ⟨by simp [encode], fun _ h => by cases h⟩
theorem tick : Statement .tick := fun _ => ⟨by simp [encode], fun _ h => by cases h⟩

end Sys2Proof.Laws.EncodesNoReservedWord
end

