-- ==== Sys2Proof/Laws/Step.lean ====
section
/-! SUPPORT. What a step can do, said once: its inversion, and what no step touches. -/

namespace Sys2Proof.Machine

/-- The one equation of exec: in every state it answers a next state. -/
theorem exec_eq (i : Instr) (s : State) :
    exec i s = .next (if s.blk.halted = true ∧ i ≠ .tick then s else effect i s) := by
  cases h : s.blk.halted
  · simp [exec_running _ h]
  · rw [exec_halted _ h]
    by_cases e : i = .tick
    · simp [e, effect, tick, h]
    · simp [e]

/-- A command row either does nothing or takes the byte and writes the mode (41_command_protocol.md R120). -/
theorem command_cases (b : Byte) (m : Mode) (s : State) :
    command b m s = s ∨ command b m s = s.rxTaken.setBlk (s.blk.setMode m) := by
  unfold command
  split <;> simp

/-- CMD_OTHER either does nothing or takes the byte (41_command_protocol.md R123). -/
theorem cmdOther_cases (b : Byte) (s : State) : cmdOther b s = s ∨ cmdOther b s = s.rxTaken := by
  unfold cmdOther
  split <;> simp

/-- A lone code changes only what it presents as its operand. -/
@[simp] theorem present_blk (s : State) (c : Code) : (s.present c).blk = s.blk := by
  cases c <;> simp only [State.present] <;> (repeat' split) <;> simp

@[simp] theorem present_cfg (s : State) (c : Code) : (s.present c).cfg = s.cfg := by
  cases c <;> simp only [State.present] <;> (repeat' split) <;> simp

/-- Where a step answers a next state: the configuration is admitted, and it is a stimulus or a lone code run in a
state with the same configuration and block. -/
theorem step_cases {s t : State} (e : step s = .next t) : s.cfg.wf = true ∧
    ((∃ u x, u.cfg = s.cfg ∧ u.blk = s.blk ∧ stimulate u x = .next t) ∨
     (∃ u c, u.cfg = s.cfg ∧ u.blk = s.blk ∧ runCode u c = .next t)) := by
  unfold step at e
  split at e <;> unfold State.checked at e <;> split at e
  · exact ⟨‹_›, .inl ⟨_, _, by simp, by simp, e⟩⟩
  · cases e
  · exact ⟨‹_›, .inl ⟨_, _, by simp, by simp, e⟩⟩
  · cases e
  · exact ⟨‹_›, .inr ⟨_, _, by simp, by simp, e⟩⟩
  · cases e

/-- Where a lone code answers a next state: it selects operations, and they ran one after another. -/
theorem runCode_cases {s t : State} {c : Code} (e : runCode s c = .next t) :
    ∃ is, select (s.present c).ctx c = .ok is ∧ execAll is (s.present c) = .next t := by
  unfold runCode at e
  split at e
  · exact ⟨_, ‹_›, e⟩
  · cases e

/-- In an admitted configuration a placed stimulus is what the step does. -/
theorem step_stim {s : State} {x : Stim} {rest : List Work} (hw : s.cfg.wf = true)
    (hp : s.pending = .stim x :: rest) : step s = stimulate (s.setPending rest) x := by
  simp [step, hp, State.checked, hw]

/-- In an admitted configuration a placed code is what the step runs. -/
theorem step_op {s : State} {c : Code} {rest : List Work} (hw : s.cfg.wf = true)
    (hp : s.pending = .op c :: rest) : step s = runCode (s.setPending rest) c := by
  simp [step, hp, State.checked, hw]

/-- What every effect keeps of the block, operations one after another keep. -/
theorem execAll_keeps {P : Block → Prop} (he : ∀ i s, P s.blk → P (effect i s).blk) :
    ∀ (is : List Instr) {s t : State}, P s.blk → execAll is s = .next t → P t.blk
  | [], s, t, hp, e => by cases e; exact hp
  | i :: is, s, t, hp, e => by
    simp only [execAll, exec_eq] at e
    refine execAll_keeps he is ?_ e
    split
    · exact hp
    · exact he i s hp

/-- What every effect keeps of the block, every step keeps that is not a reset. -/
theorem step_keeps {P : Block → Prop} (he : ∀ i s, P s.blk → P (effect i s).blk) {s t : State}
    (hn : s.nextWork.isReset = false) (hp : P s.blk) (e : step s = .next t) : P t.blk := by
  have one : ∀ (i : Instr) {u : State}, P u.blk → exec i u = .next t → P t.blk := by
    intro i u hu e
    rw [exec_eq] at e
    cases e
    split
    · exact hu
    · exact he i u hu
  have stim : ∀ (x : Stim) {u : State}, u.blk = s.blk → (Work.stim x).isReset = false → stimulate u x = .next t →
      P t.blk := by
    intro x u hu hx e
    cases x with
    | tick i => exact one .tick (by simpa [hu] using hp) e
    | fatal => exact one .halt (by simpa [hu] using hp) e
    | rst => cases hx
    | rstDuring i cut => cases hx
  unfold step at e
  split at e <;> rename_i h <;> simp only [State.nextWork, h, List.headD] at hn <;> unfold State.checked at e <;>
    split at e
  · exact stim _ (by simp) hn e
  · cases e
  · exact stim _ (by simp) hn e
  · cases e
  · obtain ⟨is, -, e⟩ := runCode_cases e
    exact execAll_keeps he is (by simpa using hp) e
  · cases e

end Sys2Proof.Machine
end

