-- ==== Sys2Proof/Tests/Slice0.lean ====
section
/-! SUPPORT. Tests. Expected values come from the spec: its encodings (30_encoding.md, opcode_table.json) and its
vectors (95_test_vectors.md, named DV-, CV-, TV-, RV-, MV- and HV-). Then one witness for each statement that has
hypotheses. -/

namespace Sys2Proof.Tests

open Sys2Proof.Machine

/-! ## Small states -/

/-- The source configuration with a terminator written out, so that frames can be compared. -/
def cfg1 : Config := { Config.v1 with lineTerm := [0x0D, 0x0A] }
def cfg2 : Config := { Config.v2 with lineTerm := [0x0A] }

def idle : Inputs := { pin1 := true, pin2 := true, rx := none, fatal := false }
def pressed : Inputs := { pin1 := false, pin2 := false, rx := none, fatal := false }

/-- Right after reset, with levels at the ports. -/
def run1 : State := { State.resetOf cfg1 with inp := idle }
def run2 : State := { State.resetOf cfg2 with inp := idle }
def halt1 : State := { run1 with blk := { run1.blk with halted := true } }
def fatal1 : State := { run1 with inp := { idle with fatal := true } }

def withRx (b : Byte) (s : State) : State := { s with inp := { s.inp with rx := some b } }
def withMode (m : Mode) (s : State) : State := { s with blk := { s.blk with mode := m } }
def withRamp (v : Nat) (d : Dir) (s : State) : State := { s with blk := { s.blk with rampV := v, rampDir := d } }
def withHist (h : Hist) (l p : Level) (s : State) : State :=
  { s with blk := { s.blk with hist1 := h, stable1 := l, hist2 := h, stable2 := l }, samp1 := p, samp2 := p }
def withEdges (e1 e2 : Edge) (s : State) : State := { s with edge1 := e1, edge2 := e2 }
def withPins (p1 p2 : Level) (s : State) : State := { s with inp := { s.inp with pin1 := p1, pin2 := p2 } }
def withStep (n : Nat) (s : State) : State := { s with cfg := { s.cfg with step := n } }
def placed (w : Work) (s : State) : State := { s with pending := [w] }

def got (o : Host.Outcome State Fault Refusal) : Option State :=
  match o with
  | .next t => some t
  | .fault _ => none
  | .refused _ => none

def refusal (o : Host.Outcome State Fault Refusal) : Option Refusal :=
  match o with
  | .next _ => none
  | .fault _ => none
  | .refused r => some r

def duties (t : State) : Option Nat × Option Nat := (t.blk.duty1, t.blk.duty2)
def ramp (t : State) : Nat × Dir := (t.blk.rampV, t.blk.rampDir)
def deb1 (t : State) : Hist × Level × Edge := (t.blk.hist1, t.blk.stable1, t.edge1)
def deb2 (t : State) : Hist × Level × Edge := (t.blk.hist2, t.blk.stable2, t.edge2)

/-! ## Well-formedness refuses ill-formed terms -/

theorem test_wf_refuses_cmdOther_of_a_command :
    (Instr.cmdOther 0x73).wf = false ∧ (Instr.cmdOther 0x6E).wf = false ∧ (Instr.cmdOther 0x62).wf = false := by
  decide

theorem test_wf_admits_upper_case : (Instr.cmdOther 0x53).wf = true ∧ (Instr.cmdOther 0x00).wf = true := by decide

theorem test_inVariant_refuses : Instr.muxV2.inVariant .v1 = false ∧ Instr.rampAdvV2.inVariant .v1 = false ∧
    Instr.rampAdvV1.inVariant .v2 = false ∧ Instr.cmdS.inVariant .v2 = false ∧ Instr.muxV1On.inVariant .v2 = false ∧
    Instr.rxNone.inVariant .v2 = false ∧ (Instr.cmdOther 0).inVariant .v2 = false := by decide

theorem test_inMode_refuses : Instr.muxV1StartOnly.inMode .on = false ∧ Instr.muxV1On.inMode .off = false ∧
    Instr.muxV1Off.inMode .startOnly = false := by decide

/-- One configuration for each constraint of 00_scope.md section 3, 10_state.md section 9 and
41_command_protocol.md section 2. -/
theorem test_config_wf_refuses :
    { cfg1 with step := 0 }.wf = false ∧ { cfg1 with step := 256 }.wf = false ∧
    { cfg1 with depth := 246 }.wf = false ∧ { cfg1 with v2Top := 256 }.wf = false ∧
    { cfg1 with soDiv := 0 }.wf = false ∧ { cfg1 with onDiv := 0 }.wf = false ∧
    { cfg1 with soBase := 129 }.wf = false ∧ { cfg1 with onBase := 231 }.wf = false ∧
    { cfg1 with offDuty := 256 }.wf = false ∧ { cfg1 with soDuty1 := 256 }.wf = false ∧
    { cfg1 with histDepth := 15 }.wf = false ∧
    { cfg1 with tag2 := 0x6E }.wf = false ∧ { cfg1 with histInit := 0xFFFE }.wf = false ∧
    { cfg1 with stableInit := false }.wf = false := by decide

theorem test_config_wf_admits : Config.v1.wf = true ∧ Config.v2.wf = true ∧ cfg1.wf = true ∧ cfg2.wf = true ∧
    { cfg1 with histInit := 0x0000, stableInit := false }.wf = true ∧ { cfg1 with depth := 245 }.wf = true ∧
    { cfg1 with soBase := 128, onBase := 230, step := 255 }.wf = true ∧
    { cfg1 with valW := 9, v1Min := 3, v1Max := 300 }.wf = true := by decide

/-! ## Decoding: the words of opcode_table.json and 30_encoding.md, bit by bit -/

def ctx1 (m : Mode) : Ctx :=
  { variant := .v1, mode := m, tag1 := 0x6E, tag2 := 0x70, edge1 := .none, edge2 := .none, rx := 0 }
def ctx2 : Ctx :=
  { variant := .v2, mode := .startOnly, tag1 := 0x6E, tag2 := 0x62, edge1 := .none, edge2 := .none, rx := 0 }

def read (x : Ctx) (c : Code) : Option Instr := (decode x c).toOption

theorem test_decode_phases : read (ctx1 .off) (.phase3 0b001) = some .sample ∧
    read (ctx1 .off) (.phase3 0b010) = some .debUpdate ∧ read (ctx1 .off) (.phase3 0b111) = some .sleep ∧
    read (ctx1 .off) (.phase3 0b000) = none := by decide

theorem test_decode_mux : read (ctx1 .startOnly) (.phase3 0b101) = some .muxV1StartOnly ∧
    read (ctx1 .on) (.phase3 0b101) = some .muxV1On ∧ read (ctx1 .off) (.phase3 0b101) = some .muxV1Off ∧
    read ctx2 (.phase3 0b101) = some .muxV2 := by decide

theorem test_decode_ramp : read (ctx1 .on) (.phase3 0b110) = some .rampAdvV1 ∧
    read ctx2 (.phase3 0b110) = some .rampAdvV2 := by decide

theorem test_decode_reports : read (ctx1 .on) (.txTag 0b01101110) = some .rptBtn1 ∧
    read (ctx1 .on) (.txTag 0b01110000) = some .rptBtn2 ∧ read ctx2 (.txTag 0b01101110) = some .rptBtn1 ∧
    read ctx2 (.txTag 0b01100010) = some .rptBtn2 ∧ read ctx2 (.txTag 0b01110000) = none := by decide

theorem test_decode_commands : read (ctx1 .on) (.rxSlot 0b1_01110011) = some .cmdS ∧
    read (ctx1 .on) (.rxSlot 0b1_01101110) = some .cmdN ∧ read (ctx1 .on) (.rxSlot 0b1_01100010) = some .cmdB ∧
    read (ctx1 .on) (.rxSlot 0b0_00000000) = some .rxNone ∧
    read (ctx1 .on) (.rxSlot 0b1_01010011) = some (.cmdOther 0x53) ∧
    read (ctx1 .on) (.rxSlot 0b1_00000000) = some (.cmdOther 0x00) ∧
    read (ctx1 .on) (.rxSlot 0b0_00000001) = none := by decide

theorem test_decode_halt_and_tick : read (ctx1 .on) (.event true) = some .halt ∧ read (ctx1 .on) (.event false) = none ∧
    read (ctx1 .on) (.phases 0b111_110_101_100_011_010_001) = some .tick ∧
    read (ctx1 .on) (.phases 0b110_111_101_100_011_010_001) = none := by decide

/-- 30_encoding.md section 6: phase 3 selects both reports, input 1 first; phase 4 nothing in variant 2. -/
theorem test_select_phases_3_and_4 :
    (select { ctx1 .on with edge1 := .falling, edge2 := .falling } (.phase3 0b011)).toOption
      = some [.rptBtn1, .rptBtn2] ∧
    (select { ctx1 .on with edge1 := .rising, edge2 := .none } (.phase3 0b011)).toOption = some [] ∧
    (select { ctx1 .on with rx := 0x173 } (.phase3 0b100)).toOption = some [.cmdS] ∧
    (select { ctx2 with rx := 0x173 } (.phase3 0b100)).toOption = some [] := by decide

/-- 30_encoding.md section 4: the words it lists and the reserved ones. -/
theorem test_field_formats : decodeMode2 0b00 = .ok .off ∧ decodeMode2 0b01 = .ok .on ∧
    decodeMode2 0b10 = .ok .startOnly ∧ decodeMode2 0b11 = .error .reservedMode ∧ decodeDir1 0 = .dec ∧
    decodeDir1 1 = .inc ∧ decodeEdge2 0b00 = .ok .none ∧ decodeEdge2 0b01 = .ok .rising ∧
    decodeEdge2 0b10 = .ok .falling ∧ decodeEdge2 0b11 = .error .reservedEdge :=
  ⟨rfl, rfl, rfl, rfl, rfl, rfl, rfl, rfl, rfl, rfl⟩

theorem test_stim11_words : decodeStim11 0x600 = some idle ∧ decodeStim11 0x000 = some pressed ∧
    decodeStim11 0x200 = some { idle with pin1 := false } ∧ decodeStim11 0x400 = some { idle with pin2 := false } ∧
    decodeStim11 0x762 = some { idle with rx := some 0x62 } ∧
    decodeStim11 0x773 = some { idle with rx := some 0x73 } ∧ decodeStim11 0x601 = none := by decide

/-- 30_encoding.md section 5: enclosed lines are repeated whole, and a line with an illegal word is refused. -/
theorem test_program_lines :
    linesStims [.fatal, .repeated 2 [.tick 0x000, .repeated 2 [.tick 0x600], .reset], .tick 0x600] =
      some [.fatal, .tick pressed, .tick idle, .tick idle, .rst, .tick pressed, .tick idle, .tick idle, .rst,
        .tick idle] ∧
    linesStims [.repeated 2 [.tick 0x601]] = none := by decide

/-- The start line of P5: the named fields, and reset values for the others. -/
theorem test_program_start :
    (State.load cfg1 { start := { rampV := some 1, rampDir := some .dec }, lines := [.repeated 5 [.tick 0x600]] }).map
        (fun s => (s.blk, s.pending.length))
      = some ({ (Block.reset cfg1) with rampV := 1, rampDir := .dec }, 5) ∧
    (State.load cfg1 { start := { duty1 := some 4, halted := some true }, lines := [] }).map
        (fun s => (s.blk.duty1, s.blk.duty2, s.blk.halted)) = some (some 4, none, true) ∧
    (State.load cfg2 { start := { mode := some .on }, lines := [] }).isNone = true := by decide

/-- 30_encoding.md section 3: a frame with another terminator, or with more bytes, is no frame of the block. -/
theorem test_frames : (decodeFrame cfg1 [0x6E, 0x0D, 0x0A]).toOption = some .rptBtn1 ∧
    (decodeFrame cfg1 [0x70, 0x0D, 0x0A]).toOption = some .rptBtn2 ∧
    (decodeFrame cfg1 [0x6E, 0x0A]).toOption = none ∧ (decodeFrame cfg1 []).toOption = none := by decide

theorem test_tableWords_numbered_as_the_table : decodeTableWord 24 0b111_110_101_100_011_010_001 = some .tick ∧
    decodeTableWord 1 1 = some .halt ∧ decodeTableWord 8 0b01101110 = some .rptBtn1 ∧
    decodeTableWord 16 0x1FF = some (.cmdOther 0xFF) ∧ decodeTableWord 16 0x200 = none := by decide

/-! ## One step of each operation -/

/-- 44_main_loop.md, SAMPLE: "pin 1 low, pin 2 high gives p1 = 0, p2 = 1". -/
theorem test_sample : (got (exec .sample (withPins false true run1))).map (fun t => (t.samp1, t.samp2))
    = some (false, true) := by decide

/-- DV-1, DV-3, DV-5, DV-6, DV-8 and DV-10. -/
theorem test_debUpdate_vectors :
    (got (exec .debUpdate (withHist 0xFFFF true true run1))).map deb1 = some (0xFFFF, true, .none) ∧
    (got (exec .debUpdate (withHist 0x8000 true false run1))).map deb1 = some (0x0000, false, .falling) ∧
    (got (exec .debUpdate (withHist 0x0000 false true run1))).map deb2 = some (0x0001, false, .none) ∧
    (got (exec .debUpdate (withHist 0x7FFF false true run1))).map deb2 = some (0xFFFF, true, .rising) ∧
    (got (exec .debUpdate (withHist 0x0000 true false run1))).map deb1 = some (0x0000, false, .falling) ∧
    (got (exec .debUpdate (withHist 0xAAAA true true run1))).map deb1 = some (0x5555, true, .none) := by decide

/-- TV-1, TV-4 and TV-5 for input 1. -/
theorem test_rptBtn1 :
    (got (exec .rptBtn1 (withEdges .falling .none run1))).map (·.tx) = some [0x6E, 0x0D, 0x0A] ∧
    (got (exec .rptBtn1 (withEdges .rising .falling run1))).map (·.tx) = some [] ∧
    (got (exec .rptBtn1 (withEdges .falling .none run2))).map (·.tx) = some [0x6E, 0x0A] := by decide

/-- TV-2, TV-4 and TV-6 for input 2. -/
theorem test_rptBtn2 :
    (got (exec .rptBtn2 (withEdges .none .falling run1))).map (·.tx) = some [0x70, 0x0D, 0x0A] ∧
    (got (exec .rptBtn2 (withEdges .falling .rising run1))).map (·.tx) = some [] ∧
    (got (exec .rptBtn2 (withEdges .none .falling run2))).map (·.tx) = some [0x62, 0x0A] := by decide

/-- CV-3 and CV-4; the byte is taken. -/
theorem test_cmdS : (got (exec .cmdS (withRx 0x73 (withMode .off run1)))).map (fun t => (t.blk.mode, t.inp.rx))
      = some (.startOnly, none) ∧
    (got (exec .cmdS (withRx 0x73 run1))).map (·.blk.mode) = some .startOnly := by decide

/-- CV-2; another byte does not select the row. -/
theorem test_cmdN : (got (exec .cmdN (withRx 0x6E (withMode .on run1)))).map (·.blk.mode) = some .off ∧
    (got (exec .cmdN (withRx 0x62 (withMode .on run1)))).map (·.blk.mode) = some .on := by decide

/-- CV-1 and CV-11. -/
theorem test_cmdB : (got (exec .cmdB (withRx 0x62 run1))).map (·.blk.mode) = some .on ∧
    (got (exec .cmdB (withRx 0x62 run2))).map (fun t => (t.blk, t.inp.rx)) = some (run2.blk, some 0x62) := by decide

/-- CV-5 and CV-8. -/
theorem test_cmdOther :
    (got (exec (.cmdOther 0x78) (withRx 0x78 (withMode .on run1)))).map (fun t => (t.blk.mode, t.inp.rx))
      = some (.on, none) ∧
    (got (exec (.cmdOther 0x00) (withRx 0x00 (withMode .off run1)))).map (·.blk.mode) = some .off := by decide

/-- CV-10. -/
theorem test_rxNone : (got (exec .rxNone (withMode .off run1))).map (·.blk.mode) = some .off := by decide

/-- MV-2, MV-10 and the worked example W2. -/
theorem test_muxV1StartOnly :
    (got (exec .muxV1StartOnly (withRamp 1 .inc run1))).map duties = some (some 0, some 125) ∧
    (got (exec .muxV1StartOnly (withRamp 200 .inc run1))).map duties = some (some 0, some 225) ∧
    (got (exec .muxV1StartOnly (withRamp 255 .inc run1))).map duties = some (some 0, some 252) := by decide

/-- MV-6, MV-7 and the worked example W1. -/
theorem test_muxV1On : (got (exec .muxV1On (withRamp 96 .inc run1))).map duties = some (some 13, some 13) ∧
    (got (exec .muxV1On (withRamp 99 .inc run1))).map duties = some (some 13, some 13) ∧
    (got (exec .muxV1On (withRamp 100 .inc run1))).map duties = some (some 14, some 14) := by decide

/-- MV-8, Off. -/
theorem test_muxV1Off : (got (exec .muxV1Off (withRamp 200 .inc run1))).map duties = some (some 4, some 4) := by
  decide

/-- MV-9, variant 2; channel 1 is written before channel 2. -/
theorem test_muxV2 : (got (exec .muxV2 (withRamp 254 .inc run2))).map (fun t => (duties t, t.pwm))
    = some ((some 254, some 254),
      [{ channel := .one, value := 254 }, { channel := .two, value := 254 }]) := by decide

/-- RV1-3 to RV1-7. -/
theorem test_rampAdvV1 : (got (exec .rampAdvV1 (withRamp 254 .inc run1))).map ramp = some (255, .inc) ∧
    (got (exec .rampAdvV1 (withRamp 255 .inc run1))).map ramp = some (255, .dec) ∧
    (got (exec .rampAdvV1 (withRamp 255 .dec run1))).map ramp = some (254, .dec) ∧
    (got (exec .rampAdvV1 (withRamp 1 .dec run1))).map ramp = some (0, .dec) ∧
    (got (exec .rampAdvV1 (withRamp 0 .dec run1))).map ramp = some (0, .inc) := by decide

/-- RV1-9 to RV1-11, with a step of 3. -/
theorem test_rampAdvV1_step3 :
    (got (exec .rampAdvV1 (withStep 3 (withRamp 254 .inc run1)))).map ramp = some (255, .dec) ∧
    (got (exec .rampAdvV1 (withStep 3 (withRamp 2 .dec run1)))).map ramp = some (0, .inc) ∧
    (got (exec .rampAdvV1 (withStep 3 (withRamp 3 .dec run1)))).map ramp = some (0, .dec) := by decide

/-- 42_brightness_ramp.md, RAMP_ADV_V1, with other bounds and a register that holds them. -/
theorem test_rampAdvV1_other_bounds :
    let s : State := { run1 with cfg := { cfg1 with valW := 9, v1Min := 10, v1Max := 300 } }
    (got (exec .rampAdvV1 (withRamp 255 .inc s))).map ramp = some (256, .inc) ∧
    (got (exec .rampAdvV1 (withRamp 300 .inc s))).map ramp = some (300, .dec) ∧
    (got (exec .rampAdvV1 (withRamp 10 .dec s))).map ramp = some (10, .inc) := by decide

/-- RV2-1 to RV2-6. -/
theorem test_rampAdvV2 : (got (exec .rampAdvV2 (withRamp 120 .inc run2))).map ramp = some (121, .inc) ∧
    (got (exec .rampAdvV2 (withRamp 121 .dec run2))).map ramp = some (120, .dec) ∧
    (got (exec .rampAdvV2 (withRamp 120 .dec run2))).map ramp = some (120, .inc) ∧
    (got (exec .rampAdvV2 (withRamp 244 .inc run2))).map ramp = some (245, .inc) ∧
    (got (exec .rampAdvV2 (withRamp 245 .inc run2))).map ramp = some (245, .dec) ∧
    (got (exec .rampAdvV2 (withRamp 245 .dec run2))).map ramp = some (244, .dec) := by decide

/-- RV2-9 to RV2-13: from outside the bounds, and with a range of one value. -/
theorem test_rampAdvV2_outside_and_one_value :
    (got (exec .rampAdvV2 (withRamp 0 .dec run2))).map ramp = some (120, .inc) ∧
    (got (exec .rampAdvV2 (withRamp 250 .inc run2))).map ramp = some (245, .dec) ∧
    (got (exec .rampAdvV2 (withRamp 255 .dec run2))).map ramp = some (245, .dec) ∧
    (got (exec .rampAdvV2 (withRamp 245 .inc { run2 with cfg := { cfg2 with depth := 0 } }))).map ramp
      = some (245, .dec) ∧
    (got (exec .rampAdvV2 (withRamp 245 .dec { run2 with cfg := { cfg2 with depth := 0 } }))).map ramp
      = some (245, .inc) := by decide

/-- 44_main_loop.md, SLEEP: everything holds. -/
theorem test_sleep : got (exec .sleep run1) = some run1 := by decide

/-- 60_exceptions.md section 2: only `halted` changes, and only on fatal. -/
theorem test_halt : (got (exec .halt fatal1)).map (·.blk) = some { run1.blk with halted := true } ∧
    got (exec .halt run1) = some run1 := by decide

/-- HV-2: fatal at the start of a tick whose word is 0x773. -/
theorem test_tick_fatal :
    (got (step (placed (.stim (.tick { idle with rx := some 0x73, fatal := true }))
      { run1 with blk := { run1.blk with mode := .off, rampV := 3, duty1 := some 4, duty2 := some 4 } }))).map
        (fun t => (t.blk, t.tx))
      = some ({ run1.blk with mode := .off, rampV := 3, duty1 := some 4, duty2 := some 4, halted := true }, []) := by
  decide

/-- P4, tick 16: both inputs confirm a press in one tick (TV-3), duty (0, 132), ramp (16, Inc). -/
theorem test_tick_both_pressed :
    (got (step (placed (.stim (.tick pressed)) (withRamp 15 .inc (withHist 0x8000 true true run1))))).map
        (fun t => (t.tx, duties t, ramp t))
      = some ([0x6E, 0x0D, 0x0A, 0x70, 0x0D, 0x0A], (some 0, some 132), (16, .inc)) := by decide

/-- 44_main_loop.md, the observation: one entry for each tick, the halted one too, and none for a fatal report or a
reset. -/
theorem test_observation :
    (observation 4 (run1.placing [.tick idle, .fatal, .tick idle, .rst])).map (·.halted) = [false, true] := by decide

/-- HV-3: reset in the halted state. -/
theorem test_reset_clears_halted : (got (step (placed (.stim .rst) halt1))).map (·.blk) = some run1.blk := by decide

/-- A word of the table placed with withFetchWord is the one operation of the next step, right after reset. -/
theorem test_withFetchWord_runs : (got (step (State.reset.withFetchWord 16 0x162))).map (·.blk.mode) = some .on ∧
    (got (step (State.reset.withFetchWord 8 0b110))).map ramp = some (1, .inc) ∧
    (got (step (State.reset.withFetchWord 1 1))).map (·.blk.halted) = some true := by decide

theorem test_withFetchWord_runs_tick :
    step (State.reset.withFetchWord 24 0b111_110_101_100_011_010_001) = exec .tick State.reset := rfl

/-! ## The hypotheses of the statements are met

Each names the statement and gives a state and operands that meet its hypotheses together, one for each clause at
the edge of its range. -/

def rstNow (s : State) : State := placed (.stim .rst) s
def cutNow (s : State) : State := placed (.stim (.rstDuring pressed ⟨1, true, false, true⟩)) s

theorem witness_ResetStimulusRestoresTheBlock :
    (rstNow halt1).cfg.wf = true ∧ (rstNow halt1).pending = .stim .rst :: [] ∧ (rstNow run2).cfg.wf = true := by decide

/-- A tick that emits two frames and writes both duties; prefixes of length 0, 1 and all. -/
theorem witness_ResetInsideATickShowsAnyPrefix : ∃ w,
    exec .tick { withHist 0x8000 true true run1 with inp := pressed, pending := [] } = .next w ∧
    w.cfg.wf = true ∧ w.tx.length = 6 ∧ w.pwm.length = 2 ∧ [] <+: w.tx ∧ [0x6E] <+: w.tx ∧ w.tx <+: w.tx :=
  ⟨_, rfl, by decide, by decide, by decide, by decide, by decide, by decide⟩

theorem witness_FatalTickOnlyHalts : fatal1.blk.halted = false ∧ fatal1.inp.fatal = true := by decide

theorem witness_HaltOperationSetsHalted : (fatal1.blk.halted = false ∧ fatal1.inp.fatal = true) ∧
    (halt1.blk.halted = true ∧ run1.inp.fatal = false) ∧
    ((placed (.stim .fatal) run1).cfg.wf = true ∧ (placed (.stim .fatal) run1).pending = .stim .fatal :: []) := by decide

/-- Halted with a fatal tick, a lone code and each kind of reset next. -/
theorem witness_OnlyResetClearsHalted : halt1.blk.halted = true ∧ (∃ t, exec .sample halt1 = .next t) ∧
    (placed (.stim (.tick { idle with fatal := true })) halt1).nextWork.isReset = false ∧
    (∃ t, step (placed (.stim (.tick { idle with fatal := true })) halt1) = .next t) ∧
    (placed (.op (.phase3 0b101)) halt1).nextWork.isReset = false ∧
    ((rstNow halt1).cfg.wf = true ∧ (rstNow halt1).nextWork.isReset = true) ∧
    ((cutNow halt1).cfg.wf = true ∧ (cutNow halt1).nextWork.isReset = true) ∧
    ({ halt1 with inp := { idle with fatal := true } } : State).inp.fatal = true :=
  ⟨by decide, ⟨_, rfl⟩, by decide, ⟨_, rfl⟩, by decide, by decide, by decide, by decide⟩

theorem witness_OnlyResetLeavesTheHaltedState : halt1.cfg.wf = true ∧ halt1.blk.halted = true ∧
    (placed (.stim (.tick { idle with fatal := true })) halt1).blk.halted = true ∧
    (placed (.stim .fatal) halt1).blk.halted = true ∧
    (∃ t, step (placed (.op (.phase3 0b101)) halt1) = .next t) ∧
    (rstNow halt1).blk.halted = true ∧ (cutNow halt1).blk.halted = true :=
  ⟨by decide, by decide, by decide, by decide, ⟨_, rfl⟩, by decide, by decide⟩

theorem witness_HaltedTickChangesNothing : halt1.blk.halted = true := by decide

theorem witness_SampleReadsBothPins : run1.blk.halted = false ∧ run1.inp.fatal = false ∧ run2.blk.halted = false ∧
    run2.inp.fatal = false := by decide

/-- A tick in which bit 14 moves to bit 15, k = 14. -/
theorem witness_DebUpdateShiftsEachHistory : (withHist 0x4000 true false run1).blk.halted = false ∧ 14 < 15 := by decide

/-- The level changes to 0 and to 1, and stays although the history is unanimous. -/
theorem witness_StableLevelFollowsSixteenEqualBits :
    (withHist 0x8000 true false run1).blk.halted = false ∧
    (got (exec .debUpdate (withHist 0x8000 true false run1))).map (·.blk.stable1) = some false ∧
    (got (exec .debUpdate (withHist 0x7FFF false true run1))).map (·.blk.stable1) = some true ∧
    (got (exec .debUpdate (withHist 0x7FFF true true run1))).map (·.blk.stable1) = some true := by decide

theorem witness_EdgeNamesTheChangeOfLevel : (withHist 0x7FFF false true run1).blk.halted = false ∧
    (got (exec .debUpdate (withHist 0x7FFF false true run1))).map (·.edge1) = some .rising := by decide

/-- Two states that agree on instance 2 and on nothing else of the block. -/
theorem witness_DebouncersShareNoState :
    let u : State := withPins false true { run1 with
      blk := { run1.blk with hist1 := 0x8000, mode := .off, rampV := 9, rampDir := .dec } }
    run1.blk.halted = false ∧ u.blk.halted = false ∧ run1.inp.fatal = false ∧ u.inp.fatal = false ∧
    run1.blk.hist .two = u.blk.hist .two ∧ run1.blk.stable .two = u.blk.stable .two ∧
    run1.inp.pin .two = u.inp.pin .two ∧ run1.inp.pin1 ≠ u.inp.pin1 ∧ run1.blk.hist1 ≠ u.blk.hist1 := by decide

theorem witness_HistoryHoldsTheLastSamples : cfg1.wf = true ∧ (∀ i ∈ List.replicate 16 pressed, i.fatal = false) ∧
    15 < 16 := by decide

/-- The 16th pressed sample confirms, the 15th does not. -/
theorem witness_EdgeExactlyOnSixteenSamples : cfg1.wf = true ∧
    (∀ i ∈ List.replicate 15 pressed, i.fatal = false) ∧ pressed.fatal = false ∧
    (got (runTicks (List.replicate 16 pressed) (State.resetOf cfg1))).map (·.edge1) = some .falling ∧
    (got (runTicks (List.replicate 15 pressed) (State.resetOf cfg1))).map (·.edge1) = some .none := by decide

/-- A press and a release give two edges, so both parities of k occur; and the pressed reset gives Rising first. -/
theorem witness_EdgesAlternateFromReset :
    edgeTrace .one (List.replicate 16 pressed ++ List.replicate 16 idle) (State.resetOf cfg1) = [.falling, .rising] ∧
    edgeTrace .one (List.replicate 16 idle ++ List.replicate 16 pressed)
      (State.resetOf { cfg1 with histInit := 0x0000, stableInit := false }) = [.rising, .falling] := by decide

theorem witness_ReportsAppendOneFrame : (ctx1 .on).tag1 ≠ (ctx1 .on).tag2 ∧
    (withEdges .falling .rising run1).blk.halted = false ∧ (withEdges .falling .rising run1).edge1 = .falling ∧
    (withEdges .falling .rising run1).edge2 ≠ .falling ∧ (withEdges .none .falling run1).edge1 ≠ .falling ∧
    (withEdges .none .falling run1).edge2 = .falling := by decide

theorem witness_TickSendsFrameOneBeforeFrameTwo :
    (withHist 0x8000 true true { run1 with inp := pressed }).blk.halted = false ∧
    (withHist 0x8000 true true { run1 with inp := pressed }).inp.fatal = false := by decide

/-- A tick whose edges are both Rising. -/
theorem witness_RisingEdgesEmitNothing : (withEdges .rising .rising run1).edge1 = .rising ∧
    (withHist 0x7FFF false true run1).blk.halted = false ∧ (withHist 0x7FFF false true run1).inp.fatal = false ∧
    (got (exec .tick (withHist 0x7FFF false true run1))).map (fun t => (t.edge1, t.edge2)) = some (.rising, .rising) := by
  decide

/-- Two states that press and differ in byte, mode, ramp and duty values. -/
theorem witness_ReportsIgnoreModeRampAndBytes :
    let s : State := withHist 0x8000 true true { run1 with inp := pressed }
    let u : State := withRx 0x62 (withMode .off (withRamp 77 .dec s))
    s.blk.halted = false ∧ u.blk.halted = false ∧ s.inp.fatal = false ∧ u.inp.fatal = false ∧ s.cfg = u.cfg ∧
    (s.blk.hist .one = u.blk.hist .one ∧ s.blk.hist .two = u.blk.hist .two ∧ s.blk.stable .one = u.blk.stable .one ∧
      s.blk.stable .two = u.blk.stable .two ∧ s.inp.pin .one = u.inp.pin .one ∧ s.inp.pin .two = u.inp.pin .two) ∧
    (got (exec .tick s)).map (fun t => (t.edge1, t.edge2)) = some (.falling, .falling) := by decide

theorem witness_CommandsWriteTheMode : (ctx1 .off).variant = .v1 ∧
    (withRx 0x73 run1).blk.halted = false ∧ (withRx 0x73 run1).cfg.variant = .v1 ∧
    (withRx 0x73 run1).inp.fatal = false ∧ (withRx 0x73 run1).inp.rx = some 0x73 ∧
    (withRx 0x6E run1).inp.rx = some 0x6E ∧ (withRx 0x62 run1).inp.rx = some 0x62 ∧ run1.inp.rx = none ∧
    run2.cfg.variant = .v2 ∧ (withRx 0x53 run1).inp.rx ≠ some 0x73 := by decide

theorem witness_OtherBytesAndNoByteKeepTheMode : (ctx1 .off).variant = .v1 ∧ (withRx 0x53 run1).blk.halted = false ∧
    (withRx 0x53 run1).cfg.variant = .v1 ∧ (withRx 0x53 run1).inp.rx = some 0x53 ∧
    ((0x53 : Byte) ≠ 0x73 ∧ (0x53 : Byte) ≠ 0x6E ∧ (0x53 : Byte) ≠ 0x62) ∧ (withRx 0x53 run1).inp.fatal = false ∧
    run2.cfg.variant = .v2 ∧ (run1.inp.rx ≠ some 0x73 ∧ run1.inp.rx ≠ some 0x6E ∧ run1.inp.rx ≠ some 0x62) := by decide

theorem witness_UnselectedCommandsDoNothing : run2.cfg.variant = .v2 ∧ (withRx 0x53 run1).inp.rx ≠ some 0x73 ∧
    (withRx 0x53 run1).inp.rx ≠ some 0x54 ∧ (withRx 0x53 run1).inp.rx ≠ none := by decide

/-- The legal word with the least byte, the illegal words with the least and the greatest byte. -/
theorem witness_CommandMapIsTotal : (0x100 : BitVec 9).getLsbD 8 = true ∧ (0x001 : BitVec 9).getLsbD 8 = false ∧
    (0x0FF : BitVec 9).getLsbD 8 = false ∧ (0x0FF : BitVec 9) ≠ 0 ∧ (0x1FF : BitVec 9).getLsbD 8 = true := by decide

theorem witness_VariantTwoIgnoresBytes : (withRx 0x62 run2).cfg.variant = .v2 := by decide

theorem witness_LastRecognisedByteWins : run1.cfg.variant = .v1 ∧ run1.blk.halted = false ∧
    (∀ i ∈ [{ idle with rx := some 0x62 }, { idle with rx := some 0x78 }], i.fatal = false) := by decide

/-- 254 and 255 upwards, 1 and 0 downwards, at a step of 1. -/
theorem witness_RampV1SaturatesAndFlips : (ctx1 .on).variant = .v1 ∧ run1.blk.halted = false ∧
    (withRamp 255 .inc run1).blk.rampV + run1.cfg.step > run1.cfg.v1Max ∧
    (withRamp 254 .inc run1).blk.rampV + run1.cfg.step ≤ run1.cfg.v1Max ∧
    (withRamp 0 .dec run1).blk.rampV < run1.cfg.v1Min + run1.cfg.step ∧
    run1.cfg.v1Min + run1.cfg.step ≤ (withRamp 1 .dec run1).blk.rampV ∧
    (run1.cfg.v1Min = 0 ∧ run1.cfg.v1Max = 255 ∧ run1.cfg.valW = 8 ∧ (withRamp 255 .inc run1).blk.rampV ≤ 255) := by
  decide

/-- 246 and 119 outside the bounds; 245, 244, 120 and 121 inside them. -/
theorem witness_RampV2ClampsSaturatesAndFlips : ctx2.variant = .v2 ∧ run2.blk.halted = false ∧
    run2.cfg.v2Top - run2.cfg.depth = 120 ∧ run2.cfg.v2Top = 245 ∧ (withRamp 246 .dec run2).blk.rampV > 245 ∧
    (withRamp 119 .inc run2).blk.rampV < 120 ∧
    (withRamp 245 .inc run2).blk.rampV + run2.cfg.step > 245 ∧
    (withRamp 244 .inc run2).blk.rampV + run2.cfg.step ≤ 245 ∧
    (withRamp 120 .dec run2).blk.rampV < 120 + run2.cfg.step ∧
    120 + run2.cfg.step ≤ (withRamp 121 .dec run2).blk.rampV := by decide

theorem witness_TickPutsTheV2RampInBounds :
    (withRamp 255 .inc run2).cfg.v2Top ≤ (withRamp 255 .inc run2).cfg.regMax ∧
    (withRamp 255 .inc run2).cfg.variant = .v2 ∧ (withRamp 255 .inc run2).blk.halted = false ∧
    (withRamp 255 .inc run2).inp.fatal = false := by decide

/-- The ramp at both ends of the bounds of each variant. -/
theorem witness_RampPeriodIsTwiceItsRange : (run1.cfg.v1Max ≤ run1.cfg.regMax ∧ run1.cfg.step = 1 ∧
      run1.blk.halted = false ∧ run1.cfg.v1Min ≤ 0 ∧ 255 ≤ run1.cfg.v1Max ∧
      511 < 2 * (run1.cfg.v1Max - run1.cfg.v1Min + 1)) ∧
    (run2.cfg.wf = true ∧ run2.cfg.v2Top ≤ run2.cfg.regMax ∧ run2.cfg.step = 1 ∧ run2.blk.halted = false ∧
      run2.cfg.inV2Range 120 ∧ run2.cfg.inV2Range 245 ∧ 251 < 2 * (run2.cfg.depth + 1)) :=
  ⟨by decide, by decide, by decide, by decide, by decide, ⟨by decide, by decide⟩, ⟨by decide, by decide⟩, by decide⟩

/-- Each of the four flips happens. -/
theorem witness_DirectionFlipsOnlyAtABoundary : run1.blk.halted = false ∧
    (got (exec .rampAdvV1 (withRamp 255 .inc run1))).map (·.blk.rampDir) = some .dec ∧
    (got (exec .rampAdvV1 (withRamp 0 .dec run1))).map (·.blk.rampDir) = some .inc ∧
    (got (exec .rampAdvV2 (withRamp 255 .inc run1))).map (·.blk.rampDir) = some .dec ∧
    (got (exec .rampAdvV2 (withRamp 0 .dec run1))).map (·.blk.rampDir) = some .inc := by decide

theorem witness_EveryTickAdvancesTheRampOnce : run1.blk.halted = false ∧ run1.inp.fatal = false ∧
    run2.blk.halted = false ∧ run2.inp.fatal = false := by decide

theorem witness_StartOnlyDuties : (ctx1 .startOnly).variant = .v1 ∧ (ctx1 .startOnly).mode = .startOnly ∧
    run1.blk.halted = false := by decide

/-- The least and the greatest ramp value. -/
theorem witness_source_values : (withRamp 0 .inc State.reset).cfg = Config.v1 ∧
    (withRamp 0 .inc State.reset).blk.halted = false ∧ (withRamp 255 .inc State.reset).cfg = Config.v1 ∧
    (withRamp 255 .inc State.reset).blk.rampV ≤ (withRamp 255 .inc State.reset).cfg.regMax :=
  ⟨rfl, rfl, rfl, by decide⟩

theorem witness_OnDuties : (ctx1 .on).variant = .v1 ∧ (ctx1 .on).mode = .on ∧
    (withRamp 255 .inc run1).blk.halted = false := by decide

theorem witness_OffDuties : (ctx1 .off).variant = .v1 ∧ (ctx1 .off).mode = .off ∧
    (withMode .off run1).blk.halted = false ∧ (withMode .off run1).inp.fatal = false ∧
    (withMode .off run1).cfg.variant = .v1 ∧ (withMode .off run1).blk.mode = .off := by decide

/-- The ramp starts outside the bounds. -/
theorem witness_VariantTwoDuties : ctx2.variant = .v2 ∧
    (withRamp 255 .inc run2).cfg.v2Top ≤ (withRamp 255 .inc run2).cfg.regMax ∧
    (withRamp 255 .inc run2).blk.halted = false ∧ (withRamp 255 .inc run2).inp.fatal = false ∧
    (withRamp 255 .inc run2).cfg.variant = .v2 ∧ pressed.fatal = false := by decide

theorem witness_EveryTickWritesBothDuties : run1.blk.halted = false ∧ run1.inp.fatal = false ∧
    ∃ t, exec .rampAdvV1 run1 = .next t := ⟨by decide, by decide, _, rfl⟩

/-- A tick, a fatal report and a lone operation, none of which unwrites a register. -/
theorem witness_WrittenDutyStaysWritten :
    let s : State := { run1 with blk := { run1.blk with duty1 := some 4, duty2 := some 5 } }
    ((placed (.stim (.tick idle)) s).nextWork.isReset = false ∧ (s.blk.duty .one).isSome ∧ (s.blk.duty .two).isSome ∧
      ∃ t, step (placed (.stim (.tick idle)) s) = .next t) ∧
    ((placed (.stim .fatal) s).nextWork.isReset = false ∧ ∃ t, step (placed (.stim .fatal) s) = .next t) ∧
    ((placed (.op (.phase3 0b110)) s).nextWork.isReset = false ∧
      ∃ t, step (placed (.op (.phase3 0b110)) s) = .next t) :=
  ⟨⟨by decide, by decide, by decide, _, rfl⟩, ⟨by decide, _, rfl⟩, by decide, _, rfl⟩

theorem witness_PwmPinsShowTheDuty : run1.blk.halted = false ∧ run1.inp.fatal = false ∧ halt1.blk.halted = true ∧
    (got (exec .tick run1)).map (·.pwm.length) = some 2 := by decide

theorem witness_DutiesUseTheNewModeAndTheOldRamp : (withRx 0x62 run1).blk.halted = false ∧ (withRx 0x62 run1).inp.fatal = false ∧
    (withRx 0x62 run1).cfg.variant = .v1 ∧
    (got (exec .tick (withRx 0x62 run1))).map (·.blk.mode) = some .on ∧
    (got (exec .tick (withRx 0x6E run1))).map (·.blk.mode) = some .off ∧
    (got (exec .tick run1)).map (·.blk.mode) = some .startOnly := by decide

theorem witness_CarrierSeesOldOrNewDuty : run1.blk.halted = false ∧ run1.inp.fatal = false ∧
    (got (exec .tick run1)).map (·.pwm.length) = some 2 := by decide

/-- In both variants; in variant 2 with a byte that is not taken. -/
theorem witness_TickRunsThePhasesInOrder : run1.blk.halted = false ∧ run1.inp.fatal = false ∧
    (withRx 0x62 run2).blk.halted = false ∧ (withRx 0x62 run2).inp.fatal = false := by decide

theorem witness_TickCompletesAndKeepsItsFrame : (withRx 0x62 run1).blk.halted = false ∧
    (withRx 0x62 run1).inp.fatal = false ∧ (withRx 0x62 run1).cfg.variant = .v1 ∧ run2.cfg.variant = .v2 := by decide

theorem witness_EachRegisterHasItsOwnWriters : (∃ t, exec .sample run1 = .next t) ∧ Instr.sample ≠ .tick ∧
    (∃ t, exec .debUpdate run1 = .next t) ∧ (∃ t, exec .halt fatal1 = .next t) :=
  ⟨⟨_, rfl⟩, by decide, ⟨_, rfl⟩, ⟨_, rfl⟩⟩

/-- Two states that differ in samples, edges and outputs; and the first and last entry of two. -/
theorem witness_TickReadsOnlyBlockAndInputs :
    let u : State := { run1 with samp1 := false, edge1 := .falling, tx := [1], draws := 5 }
    run1.cfg = u.cfg ∧ run1.blk = u.blk ∧ run1.inp = u.inp ∧ run1 ≠ u ∧ run1.cfg.wf = true ∧
      0 < [idle, pressed].length ∧ 1 < [idle, pressed].length := by decide

/-- Two states that differ in pins, histories and stable levels. -/
theorem witness_EdgesReachNoOtherState :
    let u : State := withPins false false (withHist 0x8000 true true run1)
    run1.blk.halted = false ∧ u.blk.halted = false ∧ run1.inp.fatal = false ∧ u.inp.fatal = false ∧ run1.cfg = u.cfg ∧
    run1.blk.rampV = u.blk.rampV ∧ run1.blk.rampDir = u.blk.rampDir ∧ run1.blk.mode = u.blk.mode ∧
    run1.inp.rx = u.inp.rx ∧ run1.blk.hist1 ≠ u.blk.hist1 := by decide

theorem witness_NoStepChangesTheConfiguration : ∃ t, step (placed (.stim (.tick idle)) run1) = .next t := ⟨_, rfl⟩

/-- Each constraint broken alone, at the edge of its range. -/
theorem witness_BrokenConfigurationIsRefused :
    { cfg1 with step := 0 }.step < 1 ∧ 255 < { cfg1 with step := 256 }.step ∧ 245 < { cfg1 with depth := 246 }.depth ∧
    255 < { cfg1 with v2Top := 256 }.v2Top ∧ { cfg1 with soDiv := 0 }.soDiv < 1 ∧ { cfg1 with onDiv := 0 }.onDiv < 1 ∧
    255 < { cfg1 with soBase := 129 }.soBase + 255 / 2 ∧ 255 < { cfg1 with onBase := 231 }.onBase + 255 / 10 ∧
    255 < { cfg1 with offDuty := 256 }.offDuty ∧ 255 < { cfg1 with soDuty1 := 256 }.soDuty1 ∧
    { cfg1 with histDepth := 15 }.histDepth ≠ 16 ∧ { cfg1 with tag2 := 0x6E }.tag1 = { cfg1 with tag2 := 0x6E }.tag2 ∧
    (15 < 16 ∧ { cfg1 with histInit := 0x7FFF }.histInit.getLsbD 15 ≠ { cfg1 with histInit := 0x7FFF }.stableInit) ∧
    refusal (step { run1 with cfg := { cfg1 with step := 0 } }) = some .badConfig := by decide

theorem run1_inv : run1.Inv :=
  ⟨by decide, ⟨fun _ => rfl, by decide⟩, ⟨fun _ => rfl, by decide⟩, fun h => absurd h (by decide), by decide, by decide,
    by decide, by intro c v h; cases c <;> cases h⟩

/-- In variant 2, with the ramp in its bounds. -/
theorem run2_inv : run2.Inv :=
  ⟨by decide, ⟨fun _ => rfl, by decide⟩, ⟨fun _ => rfl, by decide⟩, fun _ _ _ => ⟨by decide, by decide⟩,
    by decide, by decide, by decide, by intro c v h; cases c <;> cases h⟩

theorem placed_inv {s : State} (w : Work) (h : s.Inv) : (placed w s).Inv :=
  ⟨h.admitted, h.agrees1, h.agrees2, h.bounds, h.fixedMode, h.together, h.rampFits, h.dutyFits⟩

theorem witness_EveryStepKeepsTheInvariant :
    ((placed (.stim (.tick pressed)) run1).Inv ∧ ∃ t, step (placed (.stim (.tick pressed)) run1) = .next t) ∧
    ((placed (.stim (.tick pressed)) run2).Inv ∧ ∃ t, step (placed (.stim (.tick pressed)) run2) = .next t) :=
  ⟨⟨placed_inv _ run1_inv, _, rfl⟩, placed_inv _ run2_inv, _, rfl⟩

theorem witness_ResetMeetsTheInvariant : Config.v1.wf = true ∧ Config.v2.wf = true := by decide

theorem witness_StepRunsTheDecodedOperation :
    let s := placed (.op (.rxSlot 0x162)) run1
    s.cfg.wf = true ∧ s.pending = .op (.rxSlot 0x162) :: [] ∧
    read ({ s with pending := [] }.present (.rxSlot 0x162)).ctx (.rxSlot 0x162) = some .cmdB := by decide

theorem witness_StepRunsTheNextStimulus : (placed (.stim (.tick idle)) run1).cfg.wf = true ∧
    (placed (.stim (.tick idle)) run1).pending = .stim (.tick idle) :: [] ∧ run1.cfg.wf = true ∧ run1.pending = [] := by
  decide

/-- In each variant an operation that only it selects, with the byte at both ends of its range. -/
theorem witness_DecodeOfEncodeIsTheOperation :
    ((Instr.cmdOther 0xFF).wf = true ∧ (Instr.cmdOther 0xFF).inVariant (ctx1 .on).variant = true ∧
      (Instr.cmdOther 0xFF).inMode (ctx1 .on).mode = true ∧ (ctx1 .on).tag1 ≠ (ctx1 .on).tag2) ∧
    ((Instr.cmdOther 0x00).wf = true ∧ Instr.muxV1On.inMode (ctx1 .on).mode = true) ∧
    (Instr.muxV2.wf = true ∧ Instr.muxV2.inVariant ctx2.variant = true ∧ Instr.muxV2.inMode ctx2.mode = true ∧
      ctx2.tag1 ≠ ctx2.tag2) := by decide

theorem witness_EncodeOfDecodeIsTheCode : decode (ctx1 .on) (.phase3 0b101) = .ok .muxV1On ∧
    decode (ctx1 .on) (.rxSlot 0x1FF) = .ok (.cmdOther 0xFF) := ⟨rfl, rfl⟩

theorem witness_FramesRoundTrip : cfg1.tag1 ≠ cfg1.tag2 ∧ encodeFrame cfg1 .rptBtn2 = some [0x70, 0x0D, 0x0A] ∧
    (decodeFrame cfg1 [0x6E, 0x0D, 0x0A]).toOption = some .rptBtn1 := by decide

theorem witness_StimulusWordsRoundTrip : idle.fatal = false ∧ decodeStim11 0x600 = some idle ∧
    decodeStim11 0x001 = none := by decide

/-- The least and the greatest illegal receive slot. -/
theorem witness_ReservedWordsAreRefused :
    (run1.cfg.wf = true ∧ (placed (.op (.phase3 0b000)) run1).pending = .op (.phase3 0b000) :: []) ∧
    ((0x001 : BitVec 9).getLsbD 8 = false ∧ (0x001 : BitVec 9) ≠ 0) ∧
    ((0x0FF : BitVec 9).getLsbD 8 = false ∧ (0x0FF : BitVec 9) ≠ 0) ∧
    refusal (step (placed (.op (.phase3 0b000)) run1)) = some (.badCode .reservedPhase) ∧
    refusal (step (placed (.op (.rxSlot 0x0FF)) run1)) = some (.badCode .illegalRxSlot) := by decide

end Sys2Proof.Tests
end

section
/-! PROOF. What a tick does to one debouncer instance (40_debouncer.md R100), and that the two instances share no
state (10_state.md R24). -/

namespace Sys2Proof.Machine

/-! ## One instance through the seven phases -/

theorem phases_hist (n : Chan) (s : State) :
    (phases s).blk.hist n = shiftIn (s.blk.hist n) (s.inp.pin n) := by
  rw [phases_eq]
  cases n <;> rfl

theorem phases_stable (n : Chan) (s : State) :
    (phases s).blk.stable n = (comparator (shiftIn (s.blk.hist n) (s.inp.pin n)) (s.blk.stable n)).1 := by
  rw [phases_eq]
  cases n <;> rfl

theorem phases_edge (n : Chan) (s : State) :
    (phases s).edge n = (comparator (shiftIn (s.blk.hist n) (s.inp.pin n)) (s.blk.stable n)).2 := by
  rw [phases_eq]
  cases n <;> rfl

/-- Settles O13: after a tick, the history, stable level and edge of an instance are functions of its own history,
stable level and pin. -/
theorem debouncersShareNoState : Obligations.DebouncersShareNoState := by
  intro n s u hs hu fs fu hhist hstable hpin
  refine ⟨_, _, exec_tick_running hs fs, exec_tick_running hu fu, ?_, ?_, ?_⟩
  · simp only [phases_hist, State.clearOutputs_blk, State.clearOutputs_inp, hhist, hpin]
  · simp only [phases_stable, State.clearOutputs_blk, State.clearOutputs_inp, hhist, hstable, hpin]
  · simp only [phases_edge, State.clearOutputs_blk, State.clearOutputs_inp, hhist, hstable, hpin]

end Sys2Proof.Machine
end

section
/-! PROOF. The command map on every 9-bit `rx_slot` word (30_encoding.md R72). -/

namespace Sys2Proof.Machine

/-! ## The bits of an `rx_slot` word that the rows test -/

/-- The rows that test all nine bits test the word itself. -/
theorem rxSlotWord_and_fullMask (w : BitVec 9) : w &&& 0x1FF = w :=
  BitVec.and_allOnes

/-- The row mask 0x100 tests the valid bit v (30_encoding.md R71). -/
theorem rxSlotWord_and_validMask_eq_zero_iff (w : BitVec 9) : w &&& 0x100 = 0x000 ↔ w.getLsbD 8 = false := by
  have h : w &&& 0x100 = if w.getLsbD 8 then 0x100 else 0x000 := BitVec.and_twoPow w 8
  rw [h]
  cases w.getLsbD 8 <;> decide

/-! ## The command map -/

/-- Everything the command map can answer: the four tabled words, another word with v = 1, and the refusal of a
word with v = 0 and a nonzero byte. -/
theorem decodeCommand_cases (w : BitVec 9) :
    (w = 0x173 ∧ decodeCommand w = .ok .cmdS) ∨
    (w = 0x16E ∧ decodeCommand w = .ok .cmdN) ∨
    (w = 0x162 ∧ decodeCommand w = .ok .cmdB) ∨
    (w = 0x000 ∧ decodeCommand w = .ok .rxNone) ∨
    (w.getLsbD 8 = true ∧ w ≠ 0x173 ∧ w ≠ 0x16E ∧ w ≠ 0x162 ∧ decodeCommand w = .ok (.cmdOther (w.setWidth 8))) ∨
    (w.getLsbD 8 = false ∧ w ≠ 0x000 ∧ decodeCommand w = .error .illegalRxSlot) := by
  simp only [decodeCommand, rxSlotWord_and_fullMask, rxSlotWord_and_validMask_eq_zero_iff]
  by_cases hs : w = 0x173
  · exact .inl ⟨hs, if_pos hs⟩
  refine .inr ?_
  by_cases hn : w = 0x16E
  · exact .inl ⟨hn, by rw [if_neg hs, if_pos hn]⟩
  refine .inr ?_
  by_cases hb : w = 0x162
  · exact .inl ⟨hb, by rw [if_neg hs, if_neg hn, if_pos hb]⟩
  rw [if_neg hs, if_neg hn, if_neg hb]
  refine .inr ?_
  cases hv : w.getLsbD 8 with
  | true => exact .inr (.inl ⟨rfl, hs, hn, hb, if_neg Bool.noConfusion⟩)
  | false =>
    by_cases h0 : w = 0x000
    · exact .inl ⟨h0, by rw [if_pos rfl, if_pos h0]⟩
    · exact .inr (.inr ⟨rfl, h0, by rw [if_pos rfl, if_neg h0]⟩)

/-- Settles O24: the answers of the six cases differ, and each of the four tabled words meets one case only. -/
theorem commandMapIsTotal : Obligations.CommandMapIsTotal := by
  intro w
  rcases decodeCommand_cases w with ⟨rfl, e⟩ | ⟨rfl, e⟩ | ⟨rfl, e⟩ | ⟨rfl, e⟩ | ⟨hv, hs, hn, hb, e⟩ | ⟨hv, h0, e⟩
  · simp only [e, Except.ok.injEq, reduceCtorEq]; decide
  · simp only [e, Except.ok.injEq, reduceCtorEq]; decide
  · simp only [e, Except.ok.injEq, reduceCtorEq]; decide
  · simp only [e, Except.ok.injEq, reduceCtorEq]; decide
  · have h0 : w ≠ 0x000 := by rintro rfl; cases hv
    simp only [e, hv, hs, hn, hb, h0, Except.ok.injEq, reduceCtorEq, iff_self, implies_true,
      false_implies, and_self]
  · have hs : w ≠ 0x173 := by rintro rfl; cases hv
    have hn : w ≠ 0x16E := by rintro rfl; cases hv
    have hb : w ≠ 0x162 := by rintro rfl; cases hv
    simp only [e, hv, hs, hn, hb, h0, reduceCtorEq, iff_self, implies_true, false_implies, and_self]

end Sys2Proof.Machine
end

section
/-! PROOF. When a stable level changes (40_debouncer.md R102), and that a tick's inputs and debouncers reach nothing but
the debouncers and the reports (40_debouncer.md R109). -/

namespace Sys2Proof.Machine

/-! ## DEB_UPDATE on one instance -/

theorem debUpdate_hist (n : Chan) (s : State) :
    (debUpdate s).blk.hist n = shiftIn (s.blk.hist n) (s.sampled n) := by
  rw [debUpdate_eq]
  cases n <;> rfl

theorem debUpdate_stable (n : Chan) (s : State) :
    (debUpdate s).blk.stable n = (comparator (shiftIn (s.blk.hist n) (s.sampled n)) (s.blk.stable n)).1 := by
  rw [debUpdate_eq]
  cases n <;> rfl

/-! ## The comparator's level -/

/-- A level that the comparator changes is the level of all 16 bits. -/
theorem bits_eq_comparator_of_ne {h : Hist} {l : Level} (hne : (comparator h l).1 ≠ l) :
    ∀ k < 16, h.getLsbD k = (comparator h l).1 := by
  rcases comparator_cases h l with ⟨hh, -, e⟩ | ⟨hh, -, e⟩ | ⟨-, -, e⟩
  · rw [e]; exact (hist_allOnes_iff h).1 hh
  · rw [e]; exact (hist_zero_iff h).1 hh
  · exact absurd (congrArg Prod.fst e) hne

/-- A history unanimous at the level that the comparator does not hold sets that level. -/
theorem comparator_eq_of_bits {h : Hist} {l m : Level} (hm : m ≠ l) (bits : ∀ k < 16, h.getLsbD k = m) :
    (comparator h l).1 = m := by
  obtain ⟨ones, zeros⟩ := comparator_agrees h l
  cases m with
  | true => exact ones ((hist_allOnes_iff h).2 bits)
  | false => exact zeros ((hist_zero_iff h).2 bits)

/-- The comparator changes the level exactly on 16 equal bits of the other level (40_debouncer.md R102). -/
theorem comparator_ne_iff (h : Hist) (l : Level) :
    (comparator h l).1 ≠ l ↔ ∃ m, m ≠ l ∧ ∀ k < 16, h.getLsbD k = m := by
  constructor
  · exact fun hne => ⟨_, hne, bits_eq_comparator_of_ne hne⟩
  · rintro ⟨m, hm, bits⟩
    rwa [comparator_eq_of_bits hm bits]

/-- Settles O11: each instance holds the comparator's level on its shifted history. -/
theorem stableLevelFollowsSixteenEqualBits : Obligations.StableLevelFollowsSixteenEqualBits := by
  intro s hs
  refine ⟨_, exec_running .debUpdate hs, fun n => ?_⟩
  simp only [effect, debUpdate_hist, debUpdate_stable]
  exact ⟨comparator_ne_iff _ _, bits_eq_comparator_of_ne⟩

/-! ## What the seven phases leave beside the debouncers -/

theorem phases_rampV (s : State) : (phases s).blk.rampV = (rampNext s.cfg s.blk.rampV s.blk.rampDir).1 := by
  rw [phases_eq]

theorem phases_rampDir (s : State) : (phases s).blk.rampDir = (rampNext s.cfg s.blk.rampV s.blk.rampDir).2 := by
  rw [phases_eq]

theorem phases_mode (s : State) : (phases s).blk.mode = nextMode s := by
  rw [phases_eq]

theorem phases_duty1 (s : State) : (phases s).blk.duty1 = some (muxDuties s.cfg (nextMode s) s.blk.rampV).1 := by
  rw [phases_eq]

theorem phases_duty2 (s : State) : (phases s).blk.duty2 = some (muxDuties s.cfg (nextMode s) s.blk.rampV).2 := by
  rw [phases_eq]

theorem phases_pwm (s : State) : (phases s).pwm = s.pwm ++
    [{ channel := .one, value := (muxDuties s.cfg (nextMode s) s.blk.rampV).1 },
     { channel := .two, value := (muxDuties s.cfg (nextMode s) s.blk.rampV).2 }] := by
  rw [phases_eq]

theorem phases_halted (s : State) : (phases s).blk.halted = s.blk.halted := by
  rw [phases_eq]

/-- The bytes of a tick are the frames of its Falling edges, input 1 first (44_main_loop.md R180). -/
theorem phases_tx (s : State) : (phases s).tx =
    s.tx ++ (if (phases s).edge1 = .falling then s.cfg.tag1 :: s.cfg.lineTerm else [])
      ++ (if (phases s).edge2 = .falling then s.cfg.tag2 :: s.cfg.lineTerm else []) := by
  rw [phases_eq]

/-- The next mode is decided by the configuration, the mode and the receive slot. -/
theorem nextMode_congr {s u : State} (hcfg : s.cfg = u.cfg) (hmode : s.blk.mode = u.blk.mode)
    (hrx : s.inp.rx = u.inp.rx) : nextMode s = nextMode u := by
  simp only [nextMode, hcfg, hmode, hrx]

/-- Settles O48: the ramp, mode and duties after a tick are functions of the configuration, ramp, mode and receive
slot, and the edges stand in nothing but its `tx`. -/
theorem edgesReachNoOtherState : Obligations.EdgesReachNoOtherState := by
  intro s u hs hu fs fu hcfg hrampV hrampDir hmode hrx
  have hnext : nextMode s.clearOutputs = nextMode u.clearOutputs := nextMode_congr hcfg hmode hrx
  have htx := phases_tx s.clearOutputs
  simp only [State.clearOutputs_tx, State.clearOutputs_cfg, List.nil_append] at htx
  refine ⟨_, _, exec_tick_running hs fs, exec_tick_running hu fu, ?_, ?_, ?_, ?_, ?_, ?_, ?_, ?_, ?_, ?_⟩
  · simp only [phases_rampV, State.clearOutputs_cfg, State.clearOutputs_blk, hcfg, hrampV, hrampDir]
  · simp only [phases_rampDir, State.clearOutputs_cfg, State.clearOutputs_blk, hcfg, hrampV, hrampDir]
  · rw [phases_mode, phases_mode, hnext]
  · simp only [phases_duty1, State.clearOutputs_cfg, State.clearOutputs_blk, hcfg, hnext, hrampV]
  · simp only [phases_duty2, State.clearOutputs_cfg, State.clearOutputs_blk, hcfg, hnext, hrampV]
  · simp only [phases_pwm, State.clearOutputs_pwm, State.clearOutputs_cfg, State.clearOutputs_blk, hcfg, hnext,
      hrampV]
  · simp only [phases_halted, State.clearOutputs_blk, hs, hu]
  · intro h1
    rw [htx, if_pos h1]
    exact (List.prefix_append _ _).isInfix
  · intro h2
    rw [htx, if_pos h2]
    exact (List.suffix_append _ _).isInfix
  · rw [htx, List.length_append, apply_ite List.length, apply_ite List.length]
    simp only [List.length_cons, List.length_nil, Nat.add_comm 1]

end Sys2Proof.Machine
end

section
/-! PROOF. The reports: only a Falling edge emits (41_command_protocol.md R130), and what a tick emits depends on its
edges alone (R131). -/

namespace Sys2Proof.Machine

/-- An operation without effect answers the same state, halted or not. -/
theorem exec_of_effect_eq {i : Instr} {s : State} (h : effect i s = s) : exec i s = .next s := by
  rw [exec_eq, h, ite_self]

theorem report_of_ne_falling {i : Chan} {s : State} (tag : Byte) (h : s.edge i ≠ .falling) : report i tag s = s :=
  if_neg h

/-- The whole `tx` of a running tick: the frames of its Falling edges, input 1 first. -/
theorem phases_clearOutputs_tx (s : State) : (phases s.clearOutputs).tx =
    (if (phases s.clearOutputs).edge .one = .falling then s.cfg.tag1 :: s.cfg.lineTerm else [])
      ++ (if (phases s.clearOutputs).edge .two = .falling then s.cfg.tag2 :: s.cfg.lineTerm else []) :=
  phases_tx s.clearOutputs

/-- Settles O19: a report's guard is a Falling edge, and the bytes of a tick are the frames of its Falling edges. -/
theorem risingEdgesEmitNothing : Obligations.RisingEdgesEmitNothing := by
  have idle {i : Chan} {s : State} (tag : Byte) (h : s.edge i = .rising) : report i tag s = s :=
    report_of_ne_falling tag (by rw [h]; exact Edge.noConfusion)
  refine ⟨fun s => ⟨fun h1 => ?_, fun h2 => ?_⟩, fun s hs hf => ⟨_, exec_tick_running hs hf, fun n1 n2 => ?_⟩⟩
  · exact exec_of_effect_eq (i := .rptBtn1) (idle (i := .one) _ h1)
  · exact exec_of_effect_eq (i := .rptBtn2) (idle (i := .two) _ h2)
  · rw [phases_clearOutputs_tx, State.edge_one, State.edge_two, if_neg n1, if_neg n2, List.append_nil]

/-- The edges of a tick are decided by the histories, the stable levels and the pins. -/
theorem phases_edge_congr {s u : State} (hdeb : ∀ n, s.blk.hist n = u.blk.hist n ∧ s.blk.stable n = u.blk.stable n)
    (hpin : ∀ n, s.inp.pin n = u.inp.pin n) (n : Chan) : (phases s).edge n = (phases u).edge n := by
  obtain ⟨hhist, hstable⟩ := hdeb n
  rw [phases_edge, phases_edge, hhist, hstable, hpin]

/-- Settles O20: `tx` is a function of the configuration and the two edges, and the edges are the same in both runs. -/
theorem reportsIgnoreModeRampAndBytes : Obligations.ReportsIgnoreModeRampAndBytes := by
  intro s u hs hu fs fu hcfg hdeb hpin
  have hedge : ∀ n, (phases s.clearOutputs).edge n = (phases u.clearOutputs).edge n := phases_edge_congr hdeb hpin
  have htx : (phases s.clearOutputs).tx = (phases u.clearOutputs).tx := by
    rw [phases_clearOutputs_tx, phases_clearOutputs_tx, hedge, hedge, hcfg]
  refine ⟨_, _, exec_tick_running hs fs, exec_tick_running hu fu, htx, fun h1 => ?_, fun h2 => ?_⟩
  · rw [← htx, phases_clearOutputs_tx, State.edge_one, if_pos h1]
    exact (List.prefix_append _ _).isInfix
  · rw [← htx, phases_clearOutputs_tx, State.edge_two, if_pos h2]
    exact (List.suffix_append _ _).isInfix

end Sys2Proof.Machine
end

section
/-! PROOF. An unrecognised byte and an empty slot: neither changes the block (41_command_protocol.md R123, R124). -/

namespace Sys2Proof.Machine

/-! ## The word of a received byte (30_encoding.md R71) -/

theorem encodeRxSlot_some_valid (b : Byte) : (encodeRxSlot (some b)).getLsbD 8 = true := by
  simp [encodeRxSlot]

theorem encodeRxSlot_some_byte (b : Byte) : (encodeRxSlot (some b)).setWidth 8 = b := by
  simp [encodeRxSlot]

theorem decodeRxSlot_of_valid {w : BitVec 9} (h : w.getLsbD 8 = true) :
    decodeRxSlot w = some (some (w.setWidth 8)) :=
  if_pos h

/-- In variant 1 a legal `rx_slot` word decodes by the command map (30_encoding.md R72). -/
theorem decode_rxSlot_v1 {x : Ctx} {w : BitVec 9} (hx : x.variant = .v1) (hw : decodeRxSlot w ≠ none) :
    decode x (.rxSlot w) = decodeCommand w := by
  simp only [decode, if_neg hw, hx]

/-- An unrecognised byte selects CMD_OTHER of itself: the other rows' words stand for other bytes or have v = 0. -/
theorem decodeCommand_encodeRxSlot_other {b : Byte} (hb : isCommand b = false) :
    decodeCommand (encodeRxSlot (some b)) = .ok (.cmdOther b) := by
  obtain ⟨hS, hN, hB⟩ := (isCommand_eq_false_iff b).1 hb
  have byte := encodeRxSlot_some_byte b
  have valid := encodeRxSlot_some_valid b
  rcases decodeCommand_cases (encodeRxSlot (some b)) with
    ⟨w, -⟩ | ⟨w, -⟩ | ⟨w, -⟩ | ⟨w, -⟩ | ⟨-, -, -, -, other⟩ | ⟨invalid, -⟩
  · rw [w] at byte; exact absurd byte.symm hS
  · rw [w] at byte; exact absurd byte.symm hN
  · rw [w] at byte; exact absurd byte.symm hB
  · rw [w] at valid; cases valid
  · rw [other, byte]
  · rw [invalid] at valid; cases valid

/-! ## CMD_OTHER -/

/-- Where the slot holds its unrecognised byte, variant 1 takes the byte (41_command_protocol.md R123). -/
theorem cmdOther_selected {s : State} {b : Byte} (hv : s.cfg.variant = .v1) (hr : s.inp.rx = some b)
    (hb : isCommand b = false) : cmdOther b s = s.rxTaken :=
  if_pos (by simp [received, hv, hr, hb])

@[simp] theorem cmdOther_blk (b : Byte) (s : State) : (cmdOther b s).blk = s.blk := by
  rcases cmdOther_cases b s with e | e <;> rw [e]
  exact State.rxTaken_blk s

/-! ## A tick that receives no command -/

/-- A slot that holds none of the three command bytes selects no mode. -/
theorem slotMode_eq_none {r : Option Byte} (hS : r ≠ some 0x73) (hN : r ≠ some 0x6E) (hB : r ≠ some 0x62) :
    slotMode r = none := by
  cases r with
  | none => rfl
  | some b =>
    exact slotMode_other ((isCommand_eq_false_iff b).2
      ⟨ne_of_apply_ne some hS, ne_of_apply_ne some hN, ne_of_apply_ne some hB⟩)

theorem nextMode_of_slotMode_none {s : State} (h : slotMode s.inp.rx = none) : nextMode s = s.blk.mode := by
  unfold nextMode
  cases s.cfg.variant with
  | v1 => simp only [h, Option.getD_none]
  | v2 => rfl

theorem nextRx_v1 {s : State} (h : s.cfg.variant = .v1) : nextRx s = none := by
  simp only [nextRx, h]

theorem phases_rx (s : State) : (phases s).inp.rx = nextRx s := by
  rw [phases_eq]

/-- Settles O22: the word of an unrecognised byte decodes to CMD_OTHER, which only takes the byte, and in a tick a
slot without a command selects no mode. -/
theorem otherBytesAndNoByteKeepTheMode : Obligations.OtherBytesAndNoByteKeepTheMode := by
  have other {b : Byte} (hS : b ≠ 0x73) (hN : b ≠ 0x6E) (hB : b ≠ 0x62) : isCommand b = false :=
    (isCommand_eq_false_iff b).2 ⟨hS, hN, hB⟩
  refine ⟨?decodeOther, ?decodeNone, ?takeByte, ?keepBlock, ?noByte, ?inTick⟩
  case decodeOther =>
    intro x b hx hS hN hB
    have legal : decodeRxSlot (encodeRxSlot (some b)) ≠ none := by
      rw [decodeRxSlot_of_valid (encodeRxSlot_some_valid b)]
      exact Option.some_ne_none _
    exact (decode_rxSlot_v1 hx legal).trans (decodeCommand_encodeRxSlot_other (other hS hN hB))
  case decodeNone =>
    intro x hx
    exact (decode_rxSlot_v1 hx (by decide)).trans rfl
  case takeByte =>
    intro s b hs hv hr hS hN hB
    rw [exec_running _ hs]
    exact congrArg _ (cmdOther_selected hv hr (other hS hN hB))
  case keepBlock =>
    intro s b
    refine ⟨_, exec_eq _ s, ?_⟩
    split
    · rfl
    · exact cmdOther_blk b s
  case noByte =>
    exact fun s _ => exec_of_effect_eq (i := .rxNone) rfl
  case inTick =>
    intro s hs hf hv hS hN hB
    refine ⟨_, exec_tick_running hs hf, ?_, ?_, ?_, ?_⟩
    · rw [phases_mode]
      exact nextMode_of_slotMode_none (slotMode_eq_none hS hN hB)
    · rw [phases_rx]
      exact nextRx_v1 hv
    · rw [phases_duty1, Option.isSome_some]
    · rw [phases_duty2, Option.isSome_some]

end Sys2Proof.Machine
end

section
/-! PROOF. The ramp advances once in every tick, whatever the mode and the received byte (42_brightness_ramp.md R145). -/

namespace Sys2Proof.Machine

@[simp] theorem rampPhase_rampV (s : State) :
    (rampPhase s).blk.rampV = (rampNext s.cfg s.blk.rampV s.blk.rampDir).1 := by
  rw [rampPhase_eq, State.setBlk_blk, Block.setRamp_rampV]

@[simp] theorem rampPhase_rampDir (s : State) :
    (rampPhase s).blk.rampDir = (rampNext s.cfg s.blk.rampV s.blk.rampDir).2 := by
  rw [rampPhase_eq, State.setBlk_blk, Block.setRamp_rampDir]

/-- The advance that the variant selects, run alone, is phase 6 (30_encoding.md R85). -/
theorem exec_rampOp {s : State} (h : s.blk.halted = false) :
    exec (rampOp s.cfg.variant) s = .next (rampPhase s) := by
  rw [exec_running _ h]
  unfold rampPhase
  cases s.cfg.variant <;> rfl

/-- The seven phases leave the ramp that one advance gives from any state with the same configuration and ramp: no
other phase reaches it. -/
theorem phases_ramp_eq_rampPhase {w s : State} (hcfg : w.cfg = s.cfg) (hrampV : w.blk.rampV = s.blk.rampV)
    (hrampDir : w.blk.rampDir = s.blk.rampDir) :
    (phases w).blk.rampV = (rampPhase s).blk.rampV ∧ (phases w).blk.rampDir = (rampPhase s).blk.rampDir := by
  rw [phases_rampV, phases_rampDir, rampPhase_rampV, rampPhase_rampDir, hcfg, hrampV, hrampDir]
  exact ⟨rfl, rfl⟩

/-- Settles O32: both ticks start from the configuration and the ramp of the lone advance. -/
theorem everyTickAdvancesTheRampOnce : Obligations.EveryTickAdvancesTheRampOnce := by
  intro s m r hs hf
  let w : State := { s with blk := { s.blk with mode := m }, inp := { s.inp with rx := r } }
  obtain ⟨tickV, tickDir⟩ := phases_ramp_eq_rampPhase (w := s.clearOutputs) (s := s) rfl rfl rfl
  obtain ⟨otherV, otherDir⟩ := phases_ramp_eq_rampPhase (w := w.clearOutputs) (s := s) rfl rfl rfl
  exact ⟨_, _, _, exec_tick_running hs hf, exec_rampOp hs, exec_tick_running (s := w) hs hf,
    tickV, tickDir, otherV, otherDir⟩

end Sys2Proof.Machine
end

section
/-! PROOF. The duty registers: MUX_V2 and its range over two ticks (43_output_mapper.md R163), and who writes them
(R167). -/

namespace Sys2Proof.Machine

/-! ## The two writes of a running tick -/

theorem phases_cfg (s : State) : (phases s).cfg = s.cfg := by
  rw [phases_eq]

/-- A running tick makes the two writes of phase 5, channel 1 first, and no other. -/
theorem phases_clearOutputs_pwm (s : State) : (phases s.clearOutputs).pwm =
    [{ channel := .one, value := (muxDuties s.cfg (nextMode s) s.blk.rampV).1 },
     { channel := .two, value := (muxDuties s.cfg (nextMode s) s.blk.rampV).2 }] :=
  phases_pwm s.clearOutputs

/-! ## Variant 2 -/

/-- In variant 2 both duties are the ramp value, in every mode. -/
theorem muxDuties_v2 {c : Config} (hv : c.variant = .v2) (m : Mode) (r : Nat) : muxDuties c m r = (r, r) := by
  unfold muxDuties
  rw [hv]

theorem phases_duties_v2 {s : State} (hv : s.cfg.variant = .v2) :
    (phases s).blk.duty1 = some s.blk.rampV ∧ (phases s).blk.duty2 = some s.blk.rampV := by
  rw [phases_duty1, phases_duty2, muxDuties_v2 hv]
  exact ⟨rfl, rfl⟩

theorem rampNext_v2 {c : Config} (hv : c.variant = .v2) (v : Nat) (d : Dir) : rampNext c v d = rampNextV2 c v d := by
  unfold rampNext
  rw [hv]

/-- A running tick of variant 2 leaves the ramp in its bounds, wherever it stood (42_brightness_ramp.md R146). -/
theorem phases_rampV_inV2Range {s : State} (hv : s.cfg.variant = .v2) (hfit : s.cfg.v2Ub ≤ s.cfg.regMax) :
    s.cfg.inV2Range (phases s).blk.rampV := by
  rw [phases_rampV, rampNext_v2 hv]
  exact rampNextV2_inRange hfit _ _

/-- In variant 2 the phase code of phase 5 selects MUX_V2, whatever the mode (30_encoding.md R85). -/
theorem decode_mux_v2 {x : Ctx} (hx : x.variant = .v2) : decode x (.phase3 0b101) = .ok .muxV2 := by
  show Except.ok (muxOp x.variant x.mode) = _
  rw [hx]
  rfl

/-- Settles O36: a tick writes the ramp value from before its own advance, and the first tick's advance has put the
second tick's value in the bounds. -/
theorem variantTwoDuties : Obligations.VariantTwoDuties := by
  refine ⟨?decodes, ?alone, ?inTick, ?inBounds⟩
  case decodes => exact fun _ => decode_mux_v2
  case alone =>
    intro s hs
    rw [exec_running _ hs]
    exact congrArg _ (writeDuties_eq _ _ s)
  case inTick =>
    intro s hs hf hv
    exact ⟨_, exec_tick_running hs hf, phases_duties_v2 (s := s.clearOutputs) hv⟩
  case inBounds =>
    intro s x hfit hs hf hv hx
    let t := phases s.clearOutputs
    let w : State := { t with inp := x }
    have running : w.blk.halted = false := (phases_halted s.clearOutputs).trans hs
    have variant : w.cfg.variant = .v2 := (congrArg Config.variant (phases_cfg s.clearOutputs)).trans hv
    obtain ⟨lower, upper⟩ := phases_rampV_inV2Range (s := s.clearOutputs) hv hfit
    obtain ⟨duty1, duty2⟩ := phases_duties_v2 (s := w.clearOutputs) variant
    exact ⟨t, _, _, exec_tick_running hs hf, exec_tick_running (s := w) running hx, duty1, duty2, lower, upper⟩

/-! ## What leaves the duty registers -/

/-- `t` has the duty registers of `s` and its record of duty writes. -/
def SameDuties (s t : State) : Prop :=
  t.blk.duty1 = s.blk.duty1 ∧ t.blk.duty2 = s.blk.duty2 ∧ t.pwm = s.pwm

theorem report_sameDuties (i : Chan) (tag : Byte) (s : State) : SameDuties s (report i tag s) := by
  rw [report_eq]
  exact ⟨rfl, rfl, rfl⟩

theorem command_sameDuties (b : Byte) (m : Mode) (s : State) : SameDuties s (command b m s) := by
  rcases command_cases b m s with e | e <;> rw [e] <;> exact ⟨rfl, rfl, rfl⟩

theorem cmdOther_sameDuties (b : Byte) (s : State) : SameDuties s (cmdOther b s) := by
  rcases cmdOther_cases b s with e | e <;> rw [e] <;> exact ⟨rfl, rfl, rfl⟩

theorem haltOnFatal_sameDuties (s : State) : SameDuties s (haltOnFatal s) := by
  unfold haltOnFatal
  split <;> exact ⟨rfl, rfl, rfl⟩

/-- The five operations that write a duty register or clear the record of duty writes (43_output_mapper.md R167,
44_main_loop.md R180). -/
def writesDuties (i : Instr) : Prop :=
  i = .muxV1StartOnly ∨ i = .muxV1On ∨ i = .muxV1Off ∨ i = .muxV2 ∨ i = .tick

theorem effect_sameDuties {i : Instr} (h : ¬ writesDuties i) (s : State) : SameDuties s (effect i s) := by
  cases i with
  | muxV1StartOnly | muxV1On | muxV1Off | muxV2 | tick => exact absurd (by simp [writesDuties]) h
  | rptBtn1 | rptBtn2 => exact report_sameDuties _ _ s
  | cmdS | cmdN | cmdB => exact command_sameDuties _ _ s
  | cmdOther b => exact cmdOther_sameDuties b s
  | halt => exact haltOnFatal_sameDuties s
  | sample | debUpdate | rxNone | rampAdvV1 | rampAdvV2 | sleep => exact ⟨rfl, rfl, rfl⟩

theorem exec_sameDuties {i : Instr} (h : ¬ writesDuties i) {s t : State} (e : exec i s = .next t) :
    SameDuties s t := by
  rw [exec_eq] at e
  cases e
  split
  · exact ⟨rfl, rfl, rfl⟩
  · exact effect_sameDuties h s

/-- Settles O37: phase 5 writes both registers whatever they held, and every effect but those of the mux and TICK
keeps them. -/
theorem everyTickWritesBothDuties : Obligations.EveryTickWritesBothDuties := by
  refine ⟨?tickWrites, ?othersKeep⟩
  case tickWrites =>
    intro s hs hf
    refine ⟨_, _, _, exec_tick_running hs hf, ?_, ?_, ?_,
      phases_duty1 s.clearOutputs, phases_duty2 s.clearOutputs⟩
    · rw [phases_clearOutputs_pwm]
      exact List.mem_cons_self
    · rw [phases_clearOutputs_pwm]
      exact List.mem_cons_of_mem _ List.mem_cons_self
    · rw [phases_clearOutputs_pwm]
      rfl
  case othersKeep =>
    intro i s t e hStartOnly hOn hOff hV2 hTick
    have other : ¬ writesDuties i := by
      simp only [writesDuties, hStartOnly, hOn, hOff, hV2, hTick, or_self, not_false_iff]
    exact exec_sameDuties other e

end Sys2Proof.Machine
end

section
/-! PROOF. SAMPLE (44_main_loop.md R181) and SLEEP (R183), each run alone, and the samples of a tick. -/

namespace Sys2Proof.Machine

theorem phases_sampled (n : Chan) (s : State) : (phases s).sampled n = s.inp.pin n := by
  rw [phases_eq]
  cases n <;> rfl

/-- The bit that a tick puts into a history is the level of its pin. -/
theorem phases_hist_bit_zero (n : Chan) (s : State) : ((phases s).blk.hist n).getLsbD 0 = s.inp.pin n := by
  rw [phases_hist, shiftIn_bit_zero]

/-- Settles O9: the sample and the newest bit of each history are the level of the pin. -/
theorem sampleReadsBothPins : Obligations.SampleReadsBothPins := by
  refine ⟨?decodes, ?alone, ?inTick⟩
  case decodes => exact fun _ => rfl
  case alone => exact fun _ hs => exec_running .sample hs
  case inTick =>
    intro s hs hf
    exact ⟨_, exec_tick_running hs hf, fun n =>
      ⟨phases_sampled n s.clearOutputs, phases_hist_bit_zero n s.clearOutputs⟩⟩

/-- Settles O42: SLEEP has no effect, in a running block as in a halted one. -/
theorem sleepHoldsEverything : Obligations.SleepHoldsEverything :=
  ⟨fun _ => rfl, fun _ => exec_of_effect_eq (i := .sleep) rfl⟩

end Sys2Proof.Machine
end

section
/-! PROOF. A tick is the operations that the decoder selects for the phases 1 to 7, each in the state that the earlier
ones left (44_main_loop.md R182). -/

namespace Sys2Proof.Machine

/-! ## One phase, and phases one after another -/

/-- In a running block the operations that the phase code `w` selects do together what `f` does, and the block still
runs. -/
def PhaseDoes (w : BitVec 3) (f : State → State) : Prop :=
  ∀ s : State, s.blk.halted = false → (f s).blk.halted = false ∧
    ∃ is, select s.ctx (.phase3 w) = .ok is ∧ execAll is s = .next (f s)

theorem runPhases_cons {w : BitVec 3} {is : List Instr} {s t : State} (hsel : select s.ctx (.phase3 w) = .ok is)
    (hrun : execAll is s = .next t) (ws : List (BitVec 3)) : runPhases (w :: ws) s = runPhases ws t := by
  simp only [runPhases, hsel, hrun]

/-- Where each code does what its function does, the codes in order do what the functions do in that order. -/
theorem runPhases_eq_foldl {ws : List (BitVec 3)} {fs : List (State → State)} (h : List.Forall₂ PhaseDoes ws fs) :
    ∀ {s : State}, s.blk.halted = false → runPhases ws s = .next (fs.foldl (fun t f => f t) s) := by
  induction h with
  | nil => exact fun _ => rfl
  | cons does _ ih =>
    intro s hs
    obtain ⟨running, is, hsel, hrun⟩ := does s hs
    exact (runPhases_cons hsel hrun _).trans (ih running)

theorem execAll_singleton {i : Instr} {s : State} (hs : s.blk.halted = false) :
    execAll [i] s = .next (effect i s) := by
  simp only [execAll, exec_running i hs]

/-! ## Phase 3: the reports -/

/-- A report that only a Falling edge selects does what the report does unselected: without that edge it is idle. -/
theorem execAll_reportWhenFalling {i : Chan} {op : Instr} {tag : Byte} {s : State} (hs : s.blk.halted = false)
    (hop : effect op s = report i tag s) (is : List Instr) :
    execAll ((if s.edge i = .falling then [op] else []) ++ is) s = execAll is (report i tag s) := by
  by_cases falling : s.edge i = .falling
  · rw [if_pos falling, List.singleton_append, execAll, exec_running op hs, hop]
  · rw [if_neg falling, List.nil_append, report_of_ne_falling tag falling]

theorem report_blk (i : Chan) (tag : Byte) (s : State) : (report i tag s).blk = s.blk := by
  rw [report_eq]

theorem report_edge (i n : Chan) (tag : Byte) (s : State) : (report i tag s).edge n = s.edge n := by
  rw [report_eq]
  cases n <;> rfl

/-- Report 1 leaves both edges, so the selection made before it is the one that holds after it. -/
theorem execAll_reportOps {s : State} (hs : s.blk.halted = false) :
    execAll (reportOps s.ctx) s = .next (rptBtn2 (rptBtn1 s)) := by
  have first := execAll_reportWhenFalling (i := .one) (op := .rptBtn1) hs rfl
    (if s.edge .two = .falling then [.rptBtn2] else [])
  have second := execAll_reportWhenFalling (i := .two) (op := .rptBtn2) (s := rptBtn1 s)
    ((congrArg Block.halted (report_blk _ _ s)).trans hs) rfl []
  rw [rptBtn1, report_edge, List.append_nil] at second
  exact first.trans second

theorem reportPhase_does : PhaseDoes 0b011 (rptBtn2 ∘ rptBtn1) := by
  refine fun s hs => ⟨?_, _, rfl, execAll_reportOps hs⟩
  rw [Function.comp_apply, rptBtn2, report_blk, rptBtn1, report_blk]
  exact hs

/-! ## Phase 4: the command -/

theorem commandPhase_halted (s : State) : (commandPhase s).blk.halted = s.blk.halted := by
  rw [commandPhase_eq]
  split <;> rfl

/-- In variant 1 the command map reads from the word of the receive slot the row that phase 4 runs
(30_encoding.md R72). -/
theorem decodeCommand_commandPhase {s : State} (hv : s.cfg.variant = .v1) :
    ∃ i, decodeCommand (encodeRxSlot s.inp.rx) = .ok i ∧ effect i s = commandPhase s := by
  unfold commandPhase
  rw [hv]
  cases s.inp.rx with
  | none => exact ⟨.rxNone, rfl, rfl⟩
  | some b =>
    by_cases hS : b = chS
    · exact ⟨.cmdS, by rw [hS]; rfl, (if_pos hS).symm⟩
    by_cases hN : b = chN
    · exact ⟨.cmdN, by rw [hN]; rfl, by simp only [if_neg hS, if_pos hN, effect]⟩
    by_cases hB : b = chB
    · exact ⟨.cmdB, by rw [hB]; rfl, by simp only [if_neg hS, if_neg hN, if_pos hB, effect]⟩
    · exact ⟨.cmdOther b, decodeCommand_encodeRxSlot_other ((isCommand_eq_false_iff b).2 ⟨hS, hN, hB⟩),
        by simp only [if_neg hS, if_neg hN, if_neg hB, effect]⟩

theorem select_command_v1 {x : Ctx} (hx : x.variant = .v1) :
    select x (.phase3 0b100) = (decodeCommand x.rx).map ([·]) := by
  rw [select, if_neg (by decide), if_pos rfl, hx]

theorem select_command_v2 {x : Ctx} (hx : x.variant = .v2) : select x (.phase3 0b100) = .ok [] := by
  rw [select, if_neg (by decide), if_pos rfl, hx]

theorem commandPhase_does : PhaseDoes 0b100 commandPhase := by
  refine fun s hs => ⟨(commandPhase_halted s).trans hs, ?_⟩
  cases hv : s.cfg.variant with
  | v1 =>
    obtain ⟨i, decoded, runs⟩ := decodeCommand_commandPhase hv
    refine ⟨[i], ?_, (execAll_singleton hs).trans (congrArg _ runs)⟩
    exact (select_command_v1 hv).trans (congrArg (Except.map ([·])) decoded)
  | v2 =>
    have idle : commandPhase s = s := by rw [commandPhase_eq, hv]
    exact ⟨[], select_command_v2 hv, congrArg _ idle.symm⟩

/-! ## The phases of one operation -/

theorem samplePhase_does : PhaseDoes 0b001 sample :=
  fun _ hs => ⟨hs, [.sample], rfl, execAll_singleton hs⟩

theorem debPhase_does : PhaseDoes 0b010 debUpdate :=
  fun _ hs => ⟨hs, [.debUpdate], rfl, execAll_singleton hs⟩

theorem sleepPhase_does : PhaseDoes 0b111 State.slept :=
  fun _ hs => ⟨hs, [.sleep], rfl, execAll_singleton hs⟩

/-- The mux that variant and mode select is phase 5 (30_encoding.md R85). -/
theorem effect_muxOp (s : State) : effect (muxOp s.cfg.variant s.blk.mode) s = muxPhase s := by
  unfold muxPhase
  cases s.cfg.variant <;> cases s.blk.mode <;> rfl

theorem muxPhase_does : PhaseDoes 0b101 muxPhase := by
  refine fun s hs => ⟨?_, [muxOp s.cfg.variant s.blk.mode], rfl,
    (execAll_singleton hs).trans (congrArg _ (effect_muxOp s))⟩
  rw [muxPhase_eq]
  exact hs

theorem rampPhase_does : PhaseDoes 0b110 rampPhase := by
  refine fun s hs => ⟨?_, [rampOp s.cfg.variant], rfl, ?_⟩
  · rw [rampPhase_eq]
    exact hs
  · simp only [execAll, exec_rampOp hs]

/-- Settles O43: the seven phases of a tick are what the seven codes do, in the same order. -/
theorem tickRunsThePhasesInOrder : Obligations.TickRunsThePhasesInOrder := by
  intro s hs hf
  have codes : List.Forall₂ PhaseDoes [0b001, 0b010, 0b011, 0b100, 0b101, 0b110, 0b111]
      [sample, debUpdate, rptBtn2 ∘ rptBtn1, commandPhase, muxPhase, rampPhase, State.slept] :=
    .cons samplePhase_does <| .cons debPhase_does <| .cons reportPhase_does <| .cons commandPhase_does <|
      .cons muxPhase_does <| .cons rampPhase_does <| .cons sleepPhase_does .nil
  exact (exec_tick_running hs hf).trans (runPhases_eq_foldl codes (s := s.clearOutputs) hs).symm

end Sys2Proof.Machine
end

section
/-! PROOF. No operation raises an exception (60_exceptions.md R200), and only a reset clears `halted` (R204). -/

namespace Sys2Proof.Machine

/-- Settles O45: `exec_eq` names the next state of every operation in every state, and `Fault` has no constructor. -/
theorem noOperationRaisesAnException : Obligations.NoOperationRaisesAnException :=
  ⟨fun i s => ⟨_, exec_eq i s⟩, ⟨fun f => nomatch f⟩⟩

/-! ## The operations leave a halted block halted -/

theorem command_halted (b : Byte) (m : Mode) (s : State) : (command b m s).blk.halted = s.blk.halted := by
  rcases command_cases b m s with e | e <;> rw [e]
  exact Block.setMode_halted s.blk m

/-- Only HALT and TICK reach `halted` (60_exceptions.md R201). -/
theorem effect_halted_of_ne {i : Instr} (hHalt : i ≠ .halt) (hTick : i ≠ .tick) (s : State) :
    (effect i s).blk.halted = s.blk.halted := by
  cases i with
  | halt => exact absurd rfl hHalt
  | tick => exact absurd rfl hTick
  | rptBtn1 | rptBtn2 => exact congrArg Block.halted (report_blk _ _ s)
  | cmdS | cmdN | cmdB => exact command_halted _ _ s
  | cmdOther b => exact congrArg Block.halted (cmdOther_blk b s)
  | sample | debUpdate | rxNone | muxV1StartOnly | muxV1On | muxV1Off | muxV2 | rampAdvV1 | rampAdvV2 | sleep => rfl

theorem haltOnFatal_keeps_halted {s : State} (h : s.blk.halted = true) : (haltOnFatal s).blk.halted = true := by
  unfold haltOnFatal
  split
  · exact Block.setHalted_halted s.blk
  · exact h

/-- A tick of a halted block only clears the ports of the tick (44_main_loop.md R186). -/
theorem tick_halted {s : State} (h : s.blk.halted = true) : tick s = s.clearOutputs :=
  if_pos h

theorem effect_keeps_halted (i : Instr) (s : State) (h : s.blk.halted = true) : (effect i s).blk.halted = true := by
  by_cases hHalt : i = .halt
  · rw [hHalt]
    exact haltOnFatal_keeps_halted h
  by_cases hTick : i = .tick
  · rw [hTick, effect, tick_halted h]
    exact h
  · rw [effect_halted_of_ne hHalt hTick, h]

theorem exec_keeps_halted {i : Instr} {s t : State} (h : s.blk.halted = true) (e : exec i s = .next t) :
    t.blk.halted = true := by
  rw [exec_halted i h] at e
  cases e
  split <;> exact h

/-! ## A reset clears it -/

/-- In an admitted configuration with nothing placed, the step is the next free stimulus. -/
theorem step_free {s : State} (hw : s.cfg.wf = true) (hp : s.pending = []) :
    step s = stimulate s.nextDraw (Config.freeStim s.draws) := by
  simp only [step, hp, State.checked, hw, if_true]

/-- Both resets, between two ticks and inside one, put the reset block in place (70_reset_and_hazards.md R230,
R240). -/
theorem stimulate_reset_running {x : Stim} (hx : (Work.stim x).isReset = true) (s : State) :
    ∃ t, stimulate s x = .next t ∧ t.blk.halted = false := by
  cases x with
  | rst | rstDuring => exact ⟨_, rfl, rfl⟩
  | tick | fatal => cases hx

theorem step_reset_running {s : State} (hw : s.cfg.wf = true) (hr : s.nextWork.isReset = true) :
    ∃ t, step s = .next t ∧ t.blk.halted = false := by
  unfold State.nextWork at hr
  cases hp : s.pending with
  | nil =>
    rw [hp] at hr
    rw [step_free hw hp]
    exact stimulate_reset_running hr _
  | cons w rest =>
    rw [hp] at hr
    cases w with
    | stim x =>
      rw [step_stim hw hp]
      exact stimulate_reset_running hr _
    | op => cases hr

/-- Settles O6: no effect clears `halted`, so no step but a reset does; a halted tick does not look at `fatal`. -/
theorem onlyResetClearsHalted : Obligations.OnlyResetClearsHalted := by
  refine ⟨?operation, ?otherStep, ?reset, ?fatalAbsorbed⟩
  case operation => exact fun _ _ _ => exec_keeps_halted
  case otherStep => exact fun _ _ h hr e => step_keeps (P := (·.halted = true)) effect_keeps_halted hr h e
  case reset => exact fun _ => step_reset_running
  case fatalAbsorbed => exact fun s h _ => ⟨s.clearOutputs, congrArg _ (tick_halted h), rfl, rfl⟩

end Sys2Proof.Machine
end

section
/-! PROOF. The operations that a step can run are those of its variant (30_encoding.md R85), and what these, the
stimuli and both resets keep, every step keeps: the configuration (00_scope.md R6) and the invariant (10_state.md R33). -/

namespace Sys2Proof.Machine

/-! ## No effect reaches the configuration -/

theorem command_cfg (b : Byte) (m : Mode) (s : State) : (command b m s).cfg = s.cfg := by
  rcases command_cases b m s with e | e <;> rw [e]
  rfl

theorem cmdOther_cfg (b : Byte) (s : State) : (cmdOther b s).cfg = s.cfg := by
  rcases cmdOther_cases b s with e | e <;> rw [e]
  rfl

theorem report_cfg (i : Chan) (tag : Byte) (s : State) : (report i tag s).cfg = s.cfg := by
  rw [report_eq]

theorem haltOnFatal_cfg (s : State) : (haltOnFatal s).cfg = s.cfg := by
  unfold haltOnFatal
  split <;> rfl

theorem tick_cfg (s : State) : (tick s).cfg = s.cfg := by
  rcases tick_cases s with ⟨-, e⟩ | ⟨-, -, e⟩ | ⟨-, -, e⟩ <;> rw [e]
  · rfl
  · rfl
  · exact phases_cfg s.clearOutputs

theorem effect_cfg (i : Instr) (s : State) : (effect i s).cfg = s.cfg := by
  cases i with
  | rptBtn1 | rptBtn2 => exact report_cfg _ _ s
  | cmdS | cmdN | cmdB => exact command_cfg _ _ s
  | cmdOther b => exact cmdOther_cfg b s
  | halt => exact haltOnFatal_cfg s
  | tick => exact tick_cfg s
  | sample | debUpdate | rxNone | muxV1StartOnly | muxV1On | muxV1Off | muxV2 | rampAdvV1 | rampAdvV2 | sleep => rfl

/-! ## What a code selects, its variant admits -/

theorem muxOp_inVariant (v : Variant) (m : Mode) : (muxOp v m).inVariant v = true := by
  cases v <;> cases m <;> rfl

theorem rampOp_inVariant (v : Variant) : (rampOp v).inVariant v = true := by
  cases v <;> rfl

theorem decodeCommand_inVariant {w : BitVec 9} {i : Instr} (h : decodeCommand w = .ok i) : i.inVariant .v1 = true := by
  rcases decodeCommand_cases w with ⟨-, e⟩ | ⟨-, e⟩ | ⟨-, e⟩ | ⟨-, e⟩ | ⟨-, -, -, -, e⟩ | ⟨-, -, e⟩ <;>
    rw [e] at h <;> cases h <;> rfl

/-- Everything the decoder can answer: the phase codes of one operation, a legal `rx_slot` word in variant 1, the two
tags, the fatal event and the seven phase codes of TICK (30_encoding.md R72, R75, R85). -/
theorem decode_cases {x : Ctx} {c : Code} {i : Instr} (h : decode x c = .ok i) :
    (c = .phase3 0b001 ∧ i = .sample) ∨ (c = .phase3 0b010 ∧ i = .debUpdate) ∨
    (c = .phase3 0b101 ∧ i = muxOp x.variant x.mode) ∨ (c = .phase3 0b110 ∧ i = rampOp x.variant) ∨
    (c = .phase3 0b111 ∧ i = .sleep) ∨
    (∃ w, c = .rxSlot w ∧ x.variant = .v1 ∧ decodeCommand w = .ok i) ∨
    (c = .txTag x.tag1 ∧ i = .rptBtn1) ∨ (c = .txTag x.tag2 ∧ i = .rptBtn2) ∨
    (c = .event true ∧ i = .halt) ∨ (c = .phases tickPhases ∧ i = .tick) := by
  cases c with
  | phase3 w =>
    simp only [decode] at h
    split_ifs at h <;> cases h <;> simp [*]
  | rxSlot w =>
    simp only [decode] at h
    split at h
    · cases h
    split at h
    · simp [*]
    · cases h
  | txTag b =>
    simp only [decode] at h
    split_ifs at h <;> cases h <;> simp [*]
  | event fatal =>
    simp only [decode] at h
    split at h <;> cases h
    simp [*]
  | phases w =>
    simp only [decode] at h
    split at h <;> cases h
    simp [*]
  | other => cases h

theorem decode_inVariant {x : Ctx} {c : Code} {i : Instr} (h : decode x c = .ok i) :
    i.inVariant x.variant = true := by
  rcases decode_cases h with ⟨-, rfl⟩ | ⟨-, rfl⟩ | ⟨-, rfl⟩ | ⟨-, rfl⟩ | ⟨-, rfl⟩ | ⟨w, -, hv, hw⟩ | ⟨-, rfl⟩ |
    ⟨-, rfl⟩ | ⟨-, rfl⟩ | ⟨-, rfl⟩
  case inr.inr.inl => exact muxOp_inVariant _ _
  case inr.inr.inr.inl => exact rampOp_inVariant _
  case inr.inr.inr.inr.inr.inl =>
    rw [hv]
    exact decodeCommand_inVariant hw
  all_goals rfl

theorem reportOps_inVariant {x : Ctx} {i : Instr} (h : i ∈ reportOps x) : i.inVariant x.variant = true := by
  unfold reportOps at h
  rcases List.mem_append.1 h with h | h <;> split at h
  · cases List.mem_singleton.1 h; rfl
  · cases h
  · cases List.mem_singleton.1 h; rfl
  · cases h

/-- Every operation that a code selects is one of the variant (30_encoding.md R85). -/
theorem select_inVariant {x : Ctx} {c : Code} {is : List Instr} (h : select x c = .ok is) :
    ∀ i ∈ is, i.inVariant x.variant = true := by
  unfold select at h
  split at h
  · cases h
    exact fun i => reportOps_inVariant
  split at h
  · cases hv : x.variant with
    | v1 =>
      cases hd : decodeCommand x.rx with
      | ok i =>
        simp only [hv, hd, Except.map, Except.ok.injEq] at h
        subst h
        simpa using decodeCommand_inVariant hd
      | error e =>
        simp [hv, hd, Except.map] at h
    | v2 =>
      simp only [hv, Except.ok.injEq] at h
      subst h
      simp
  split at h
  · rename_i i hd
    cases h
    simpa using decode_inVariant hd
  · cases h; simp
  · cases h; simp
  · cases h

/-! ## What every step keeps -/

/-- What the effects of a variant's operations keep, operations of the variant keep one after another. -/
theorem execAll_keeps_selected {P : State → Prop}
    (keeps : ∀ i s, i.inVariant s.cfg.variant = true → P s → P (effect i s)) :
    ∀ {is : List Instr} {s t : State}, (∀ i ∈ is, i.inVariant s.cfg.variant = true) → P s →
      execAll is s = .next t → P t
  | [], _, _, _, hp, e => by cases e; exact hp
  | i :: is, s, t, hsel, hp, e => by
    simp only [execAll, exec_eq] at e
    obtain ⟨hi, his⟩ := List.forall_mem_cons.1 hsel
    split at e
    · exact execAll_keeps_selected keeps his hp e
    · exact execAll_keeps_selected keeps (by rwa [effect_cfg]) (keeps i s hi hp) e

/-- A property of the configuration and the block that the effects of a variant's operations and a reset keep is kept
by every step. -/
theorem step_keeps_selected {P : State → Prop} (congr : ∀ {s u : State}, P s → u.cfg = s.cfg → u.blk = s.blk → P u)
    (keeps : ∀ i s, i.inVariant s.cfg.variant = true → P s → P (effect i s)) (restart : ∀ s, P s → P s.restart)
    {s t : State} (hp : P s) (e : step s = .next t) : P t := by
  obtain ⟨-, ⟨u, x, hcfg, hblk, e⟩ | ⟨u, c, hcfg, hblk, e⟩⟩ := step_cases e
  · have hu : P u := congr hp hcfg hblk
    have tickKeeps (i : Inputs) : P (tick (u.setInputs i)) := keeps .tick _ rfl (congr hu rfl rfl)
    cases x with
    | tick i =>
      cases e
      exact tickKeeps i
    | fatal =>
      have hf : P (u.clearOutputs.setFatal true) := congr hu rfl rfl
      rw [stimulate, exec_eq] at e
      cases e
      split
      · exact hf
      · exact keeps .halt _ rfl hf
    | rst =>
      cases e
      exact restart u hu
    | rstDuring i cut =>
      cases e
      exact congr (restart _ (tickKeeps i)) rfl rfl
  · obtain ⟨is, hsel, e⟩ := runCode_cases e
    exact execAll_keeps_selected keeps (select_inVariant hsel)
      (congr (congr hp hcfg hblk) (present_cfg u c) (present_blk u c)) e

/-- Settles O49: no effect and no reset reaches the configuration. -/
theorem noStepChangesTheConfiguration : Obligations.NoStepChangesTheConfiguration := by
  intro s t e
  exact step_keeps_selected (P := (·.cfg = s.cfg)) (fun h hcfg _ => hcfg.trans h)
    (fun i u _ h => (effect_cfg i u).trans h) (fun _ h => h) rfl e

/-! ## The invariant, operation by operation -/

theorem State.Inv.congr {s u : State} (h : s.Inv) (hcfg : u.cfg = s.cfg) (hblk : u.blk = s.blk) : u.Inv := by
  obtain ⟨admitted, agrees1, agrees2, bounds, fixedMode, together, rampFits, dutyFits⟩ := h
  constructor <;> simpa only [hcfg, hblk]

/-- The comparator makes each level agree with its shifted history (10_state.md R33). -/
theorem debUpdate_inv {s : State} (h : s.Inv) : (debUpdate s).Inv :=
  { h with agrees1 := comparator_agrees _ _, agrees2 := comparator_agrees _ _ }

/-- A command writes the mode in variant 1 alone (41_command_protocol.md R125). -/
theorem command_v2 {b : Byte} {m : Mode} {s : State} (hv : s.cfg.variant = .v2) : command b m s = s :=
  if_neg (by simp [received, hv])

theorem setMode_inv {s : State} (hv : s.cfg.variant = .v1) (m : Mode) (h : s.Inv) : (s.setBlk (s.blk.setMode m)).Inv :=
  { h with fixedMode := fun hv2 => by rw [State.setBlk_cfg, hv] at hv2; cases hv2 }

theorem command_inv (b : Byte) (m : Mode) {s : State} (h : s.Inv) : (command b m s).Inv := by
  cases hv : s.cfg.variant with
  | v2 => rwa [command_v2 hv]
  | v1 =>
    rcases command_cases b m s with e | e <;> rw [e]
    · exact h
    · exact (setMode_inv hv m h).congr rfl rfl

theorem writeDuties_inv {s : State} {d1 d2 : Nat} (fits1 : d1 ≤ s.cfg.regMax) (fits2 : d2 ≤ s.cfg.regMax)
    (h : s.Inv) : (writeDuties d1 d2 s).Inv :=
  { h with
    together := rfl
    dutyFits := by
      intro c v hd
      cases c <;> cases hd
      · exact fits1
      · exact fits2 }

theorem setRamp_inv {s : State} {v : Nat} {d : Dir} (fits : v ≤ s.cfg.regMax)
    (bounds : s.cfg.variant = .v2 → s.cfg.v2Ub ≤ s.cfg.regMax → s.cfg.inV2Range v) (h : s.Inv) :
    (s.setBlk (s.blk.setRamp v d)).Inv :=
  { h with bounds := fun hv hfit _ => bounds hv hfit, rampFits := fits }

theorem rampAdvV1_inv {s : State} (hv : s.cfg.variant = .v1) (h : s.Inv) : (rampAdvV1 s).Inv :=
  setRamp_inv (rampNextV1_le _ _ _) (fun hv2 _ => by rw [hv] at hv2; cases hv2) h

theorem rampAdvV2_inv {s : State} (h : s.Inv) : (rampAdvV2 s).Inv :=
  setRamp_inv (rampNextV2_le _ _ _) (fun _ hfit => rampNextV2_inRange hfit _ _) h

theorem enterHalt_inv {s : State} (h : s.Inv) : s.enterHalt.Inv :=
  { h with }

/-! ## The invariant in a tick -/

theorem report_inv (i : Chan) (tag : Byte) {s : State} (h : s.Inv) : (report i tag s).Inv :=
  h.congr (report_cfg i tag s) (report_blk i tag s)

theorem commandPhase_inv {s : State} (h : s.Inv) : (commandPhase s).Inv := by
  rw [commandPhase_eq]
  cases hv : s.cfg.variant with
  | v1 => exact (setMode_inv hv _ h).congr rfl rfl
  | v2 => exact h

theorem muxPhase_inv {s : State} (h : s.Inv) : (muxPhase s).Inv := by
  unfold muxPhase
  cases s.cfg.variant with
  | v2 => exact writeDuties_inv h.rampFits h.rampFits h
  | v1 => cases s.blk.mode <;> exact writeDuties_inv (store_le _ _) (store_le _ _) h

theorem rampPhase_inv {s : State} (h : s.Inv) : (rampPhase s).Inv := by
  unfold rampPhase
  cases hv : s.cfg.variant with
  | v1 => exact rampAdvV1_inv hv h
  | v2 => exact rampAdvV2_inv h

theorem phases_inv {s : State} (h : s.Inv) : (phases s).Inv :=
  rampPhase_inv <| muxPhase_inv <| commandPhase_inv <| report_inv _ _ <| report_inv _ _ <| debUpdate_inv <|
    h.congr (u := sample s) rfl rfl

theorem tick_inv {s : State} (h : s.Inv) : (tick s).Inv := by
  have cleared : s.clearOutputs.Inv := h.congr rfl rfl
  rcases tick_cases s with ⟨-, e⟩ | ⟨-, -, e⟩ | ⟨-, -, e⟩ <;> rw [e]
  · exact cleared
  · exact enterHalt_inv cleared
  · exact phases_inv cleared

theorem haltOnFatal_inv {s : State} (h : s.Inv) : (haltOnFatal s).Inv := by
  unfold haltOnFatal
  split
  · exact enterHalt_inv h
  · exact h

/-! ## The invariant over a step -/

theorem effect_inv {i : Instr} {s : State} (hi : i.inVariant s.cfg.variant = true) (h : s.Inv) : (effect i s).Inv := by
  cases i with
  | debUpdate => exact debUpdate_inv h
  | rptBtn1 | rptBtn2 => exact report_inv _ _ h
  | cmdS | cmdN | cmdB => exact command_inv _ _ h
  | cmdOther b => exact h.congr (cmdOther_cfg b s) (cmdOther_blk b s)
  | muxV1StartOnly | muxV1On | muxV1Off =>
    exact writeDuties_inv (store_le _ _) (store_le _ _) h
  | muxV2 => exact writeDuties_inv h.rampFits h.rampFits h
  | rampAdvV1 => exact rampAdvV1_inv (beq_iff_eq.1 hi) h
  | rampAdvV2 => exact rampAdvV2_inv h
  | halt => exact haltOnFatal_inv h
  | tick => exact tick_inv h
  | sample | rxNone | sleep => exact h.congr rfl rfl

/-- The two admitted reset pairs of a debouncer agree (10_state.md R36). -/
theorem histAgrees_reset {c : Config} (hw : c.wf = true) : histAgrees c.histInit c.stableInit := by
  obtain ⟨-, -, -, -, -, -, -, ⟨hh, hl⟩ | ⟨hh, hl⟩⟩ := (wf_iff c).1 hw <;> rw [hh, hl]
  · exact ⟨fun _ => rfl, by decide⟩
  · exact ⟨by decide, fun _ => rfl⟩

/-- An initial ramp value in the bounds fits a register that holds the upper one, so it is stored unchanged. -/
theorem restart_inv {s : State} (hw : s.cfg.wf = true) : s.restart.Inv where
  admitted := hw
  agrees1 := histAgrees_reset hw
  agrees2 := histAgrees_reset hw
  bounds := by
    intro _ (hfit : s.cfg.v2Ub ≤ s.cfg.regMax) (hinit : s.cfg.inV2Range s.cfg.rampInitV)
    show s.cfg.inV2Range (s.cfg.store s.cfg.rampInitV)
    rwa [store_eq (hinit.2.trans hfit)]
  fixedMode := fun _ => rfl
  together := rfl
  rampFits := store_le _ _
  dutyFits := by
    intro c v hd
    cases c <;> cases hd

/-- Settles O51: the operations of the variant keep the invariant one by one, and a reset establishes it. -/
theorem everyStepKeepsTheInvariant : Obligations.EveryStepKeepsTheInvariant := fun _ _ h e =>
  step_keeps_selected State.Inv.congr (fun _ _ => effect_inv) (fun _ h => restart_inv h.admitted) h e

/-- Settles O52: the state after power-on has the configuration and the block of a reset. -/
theorem resetMeetsTheInvariant : Obligations.ResetMeetsTheInvariant := by
  have fromReset (c : Config) (hw : c.wf = true) : (State.resetOf c).Inv :=
    (restart_inv (s := State.resetOf c) hw).congr rfl rfl
  exact ⟨fromReset, fromReset Config.v1 (by decide)⟩

end Sys2Proof.Machine
end

section
/-! PROOF. The encodings: operations and their codes (30_encoding.md R72, R75, R85), report frames (R74), stimulus
words (R81), and the words that are refused. -/

namespace Sys2Proof.Machine

/-! ## The decoder on the codes that context selects -/

theorem decode_mux (x : Ctx) : decode x (.phase3 0b101) = .ok (muxOp x.variant x.mode) := rfl

theorem decode_ramp (x : Ctx) : decode x (.phase3 0b110) = .ok (rampOp x.variant) := rfl

theorem decode_tag1 (x : Ctx) : decode x (.txTag x.tag1) = .ok .rptBtn1 :=
  if_pos rfl

theorem decode_tag2 {x : Ctx} (h : x.tag1 ≠ x.tag2) : decode x (.txTag x.tag2) = .ok .rptBtn2 :=
  (if_neg h.symm).trans (if_pos rfl)

theorem decode_cmdS {x : Ctx} (hx : x.variant = .v1) : decode x (.rxSlot 0x173) = .ok .cmdS :=
  (decode_rxSlot_v1 hx (by decide)).trans rfl

theorem decode_cmdN {x : Ctx} (hx : x.variant = .v1) : decode x (.rxSlot 0x16E) = .ok .cmdN :=
  (decode_rxSlot_v1 hx (by decide)).trans rfl

theorem decode_cmdB {x : Ctx} (hx : x.variant = .v1) : decode x (.rxSlot 0x162) = .ok .cmdB :=
  (decode_rxSlot_v1 hx (by decide)).trans rfl

theorem decode_rxNone {x : Ctx} (hx : x.variant = .v1) : decode x (.rxSlot 0x000) = .ok .rxNone :=
  (decode_rxSlot_v1 hx (by decide)).trans rfl

/-! ## The receive slot and its word (30_encoding.md R71) -/

theorem decodeRxSlot_encodeRxSlot (r : Option Byte) : decodeRxSlot (encodeRxSlot r) = some r := by
  cases r with
  | none => rfl
  | some b => rw [decodeRxSlot_of_valid (encodeRxSlot_some_valid b), encodeRxSlot_some_byte]

/-- A word with v = 1 is the word of its byte. -/
theorem encodeRxSlot_of_valid {w : BitVec 9} (h : w.getLsbD 8 = true) : encodeRxSlot (some (w.setWidth 8)) = w := by
  apply BitVec.eq_of_getLsbD_eq
  intro k hk
  rcases Nat.lt_or_eq_of_le (Nat.lt_succ_iff.1 hk) with hk | rfl
  · interval_cases k <;> simp [encodeRxSlot]
  · rw [encodeRxSlot_some_valid, h]

theorem decode_encodeRxSlot_other {b : Byte} {x : Ctx} (hx : x.variant = .v1) (hb : isCommand b = false) :
    decode x (.rxSlot (encodeRxSlot (some b))) = .ok (.cmdOther b) := by
  rw [decode_rxSlot_v1 hx (by rw [decodeRxSlot_encodeRxSlot]; exact Option.some_ne_none _)]
  exact decodeCommand_encodeRxSlot_other hb

theorem cmdOther_wf_iff (b : Byte) : (Instr.cmdOther b).wf = true ↔ isCommand b = false := by
  rw [Instr.wf, Bool.not_eq_true']

/-- Settles O55: a code that context does not select is its row's own, and the word of CMD_OTHER is that of its byte. -/
theorem decodeOfEncodeIsTheOperation : Obligations.DecodeOfEncodeIsTheOperation := by
  intro x i hwf hv hm htags
  cases i with
  | sample | debUpdate | sleep | halt | tick => rfl
  | rptBtn1 => exact decode_tag1 x
  | rptBtn2 => exact decode_tag2 htags
  | cmdS => exact decode_cmdS (beq_iff_eq.1 hv)
  | cmdN => exact decode_cmdN (beq_iff_eq.1 hv)
  | cmdB => exact decode_cmdB (beq_iff_eq.1 hv)
  | rxNone => exact decode_rxNone (beq_iff_eq.1 hv)
  | cmdOther b => exact decode_encodeRxSlot_other (beq_iff_eq.1 hv) ((cmdOther_wf_iff b).1 hwf)
  | muxV1StartOnly | muxV1On | muxV1Off =>
    rw [encode, decode_mux, beq_iff_eq.1 hv, beq_iff_eq.1 hm]
    rfl
  | muxV2 => exact decode_mux_v2 (beq_iff_eq.1 hv)
  | rampAdvV1 | rampAdvV2 =>
    rw [encode, decode_ramp, beq_iff_eq.1 hv]
    rfl

/-! ## From a code to its operation and back -/

theorem encode_muxOp (x : Ctx) (v : Variant) (m : Mode) : encode x (muxOp v m) = .phase3 0b101 := by
  cases v <;> cases m <;> rfl

theorem muxOp_wf (v : Variant) (m : Mode) : (muxOp v m).wf = true := by
  cases v <;> cases m <;> rfl

theorem muxOp_inMode (v : Variant) (m : Mode) : (muxOp v m).inMode m = true := by
  cases v <;> cases m <;> rfl

/-- The byte of a word that selects CMD_OTHER is none of the three commands: their words are other rows. -/
theorem isCommand_byte_of_valid {w : BitVec 9} (hv : w.getLsbD 8 = true) (hS : w ≠ 0x173) (hN : w ≠ 0x16E)
    (hB : w ≠ 0x162) : isCommand (w.setWidth 8) = false := by
  have word := encodeRxSlot_of_valid hv
  refine (isCommand_eq_false_iff _).2 ⟨fun h => hS ?_, fun h => hN ?_, fun h => hB ?_⟩ <;>
    rw [← word, h] <;> rfl

/-- A word that the command map reads is the word of the operation it names. -/
theorem encode_of_decodeCommand {x : Ctx} {w : BitVec 9} {i : Instr} (h : decodeCommand w = .ok i) :
    encode x i = .rxSlot w ∧ i.wf = true ∧ i.inMode x.mode = true := by
  rcases decodeCommand_cases w with ⟨rfl, e⟩ | ⟨rfl, e⟩ | ⟨rfl, e⟩ | ⟨rfl, e⟩ | ⟨hv, hS, hN, hB, e⟩ | ⟨-, -, e⟩ <;>
    rw [e] at h <;> cases h
  case inr.inr.inr.inr.inl =>
    refine ⟨congrArg Code.rxSlot (encodeRxSlot_of_valid hv), ?_, rfl⟩
    exact (cmdOther_wf_iff _).2 (isCommand_byte_of_valid hv hS hN hB)
  all_goals exact ⟨rfl, rfl, rfl⟩

/-- Settles O56: each answer of the decoder belongs to one code, and its variant admits it. -/
theorem encodeOfDecodeIsTheCode : Obligations.EncodeOfDecodeIsTheCode := by
  intro x c i h
  suffices encode x i = c ∧ i.wf = true ∧ i.inMode x.mode = true by
    obtain ⟨code, wf, inMode⟩ := this
    exact ⟨code, wf, decode_inVariant h, inMode⟩
  rcases decode_cases h with ⟨rfl, rfl⟩ | ⟨rfl, rfl⟩ | ⟨rfl, rfl⟩ | ⟨rfl, rfl⟩ | ⟨rfl, rfl⟩ | ⟨w, rfl, -, hw⟩ |
    ⟨rfl, rfl⟩ | ⟨rfl, rfl⟩ | ⟨rfl, rfl⟩ | ⟨rfl, rfl⟩
  case inr.inr.inl => exact ⟨encode_muxOp _ _ _, muxOp_wf _ _, muxOp_inMode _ _⟩
  case inr.inr.inr.inl => cases x.variant <;> exact ⟨rfl, rfl, rfl⟩
  case inr.inr.inr.inr.inr.inl => exact encode_of_decodeCommand hw
  all_goals exact ⟨rfl, rfl, rfl⟩

/-- Settles O57: each word evaluated by the decoder in the reset context. -/
theorem tableWordsDecodeAsTabled : Obligations.TableWordsDecodeAsTabled :=
  ⟨rfl, rfl, rfl, rfl, rfl, rfl, rfl, rfl, rfl, rfl, rfl, rfl, rfl, rfl⟩

/-! ## Report frames -/

/-- A byte list that decodes is one of the two frames (30_encoding.md R74). -/
theorem encodeFrame_of_decodeFrame {c : Config} {i : Instr} {bs : List Byte} (h : decodeFrame c bs = .ok i) :
    encodeFrame c i = some bs := by
  cases bs with
  | nil => cases h
  | cons tag term =>
    simp only [decodeFrame] at h
    split_ifs at h with hterm htag1 htag2 <;> cases h
    · rw [hterm, htag1]; rfl
    · rw [hterm, htag2]; rfl

theorem decodeFrame_frame1 (c : Config) : decodeFrame c (frame c.tag1 c.lineTerm) = .ok .rptBtn1 := by
  rw [frame, decodeFrame, if_pos rfl, if_pos rfl]

theorem decodeFrame_frame2 {c : Config} (h : c.tag1 ≠ c.tag2) :
    decodeFrame c (frame c.tag2 c.lineTerm) = .ok .rptBtn2 := by
  rw [frame, decodeFrame, if_pos rfl, if_neg h.symm, if_pos rfl]

/-- Settles O58: only the two reports have a frame, and their tags tell the frames apart. -/
theorem framesRoundTrip : Obligations.FramesRoundTrip := by
  refine fun c htags => ⟨fun i bs h => ?_, fun i bs => encodeFrame_of_decodeFrame⟩
  cases i <;> cases h
  · exact ⟨decodeFrame_frame1 c, Nat.add_comm _ _⟩
  · exact ⟨decodeFrame_frame2 htags, Nat.add_comm _ _⟩

/-! ## Stimulus words (30_encoding.md R81) -/

/-- A word of the receive slot is refused exactly where v = 0 and the byte is not 0 (30_encoding.md R72). -/
theorem decodeRxSlot_eq_none_iff (w : BitVec 9) : decodeRxSlot w = none ↔ w.getLsbD 8 = false ∧ w ≠ 0 := by
  unfold decodeRxSlot
  split_ifs with hv h0
  · simp [hv]
  · simp [h0]
  · exact ⟨fun _ => ⟨Bool.eq_false_iff.2 hv, h0⟩, fun _ => rfl⟩

theorem encodeRxSlot_of_decodeRxSlot {w : BitVec 9} {r : Option Byte} (h : decodeRxSlot w = some r) :
    encodeRxSlot r = w := by
  unfold decodeRxSlot at h
  split_ifs at h with hv h0 <;> cases h
  · exact encodeRxSlot_of_valid hv
  · exact h0.symm

theorem encodeStim11_pin1 (i : Inputs) : (encodeStim11 i).getLsbD 10 = i.pin1 := by
  cases h1 : i.pin1 <;> cases h2 : i.pin2 <;> simp [encodeStim11, h1, h2]

theorem encodeStim11_pin2 (i : Inputs) : (encodeStim11 i).getLsbD 9 = i.pin2 := by
  cases h1 : i.pin1 <;> cases h2 : i.pin2 <;> simp [encodeStim11, h1, h2]

theorem encodeStim11_rx (i : Inputs) : (encodeStim11 i).setWidth 9 = encodeRxSlot i.rx := by
  cases h1 : i.pin1 <;> cases h2 : i.pin2 <;> simp [encodeStim11, h1, h2]

/-- An 11-bit word is its two pin bits beside its receive slot. -/
theorem stim11_bits (w : BitVec 11) : (if w.getLsbD 10 then (0x400 : BitVec 11) else 0) |||
    (if w.getLsbD 9 then 0x200 else 0) ||| (w.setWidth 9).zeroExtend 11 = w := by
  apply BitVec.eq_of_getLsbD_eq
  intro k hk
  cases h10 : w[10] <;> cases h9 : w[9] <;> interval_cases k <;> simp [h10, h9]

theorem decodeStim11_encodeStim11 {i : Inputs} (h : i.fatal = false) : decodeStim11 (encodeStim11 i) = some i := by
  rw [decodeStim11, encodeStim11_rx, encodeStim11_pin1, encodeStim11_pin2, decodeRxSlot_encodeRxSlot, ← h]
  rfl

theorem encodeStim11_of_decodeStim11 {w : BitVec 11} {i : Inputs} (h : decodeStim11 w = some i) :
    encodeStim11 i = w ∧ i.fatal = false := by
  obtain ⟨r, hr, rfl⟩ := Option.map_eq_some_iff.1 h
  refine ⟨?_, rfl⟩
  rw [encodeStim11, encodeRxSlot_of_decodeRxSlot hr]
  exact stim11_bits w

/-- Where v = 0, the receive slot of a word is 0 exactly where its byte is. -/
theorem setWidth_nine_eq_zero_iff {w : BitVec 11} (h : w.getLsbD 8 = false) :
    w.setWidth 9 = 0 ↔ w.setWidth 8 = 0 := by
  have bit : w.toNat / 2 ^ 8 % 2 ≠ 1 := by
    rwa [BitVec.getLsbD, Nat.testBit_eq_decide_div_mod_eq, decide_eq_false_iff_not] at h
  rw [← BitVec.toNat_inj, ← BitVec.toNat_inj, BitVec.toNat_setWidth, BitVec.toNat_setWidth]
  show w.toNat % 2 ^ 9 = 0 ↔ w.toNat % 2 ^ 8 = 0
  omega

/-- Settles O59: the three parts of a word do not overlap, and only its receive slot can be refused. -/
theorem stimulusWordsRoundTrip : Obligations.StimulusWordsRoundTrip := by
  refine ⟨fun _ => decodeStim11_encodeStim11, fun _ _ => encodeStim11_of_decodeStim11, fun w => ?_⟩
  have bit8 : (w.setWidth 9).getLsbD 8 = w.getLsbD 8 := by simp
  rw [decodeStim11, Option.map_eq_none_iff, decodeRxSlot_eq_none_iff, bit8]
  exact and_congr_right fun hv => not_congr (setWidth_nine_eq_zero_iff hv)

/-! ## Reserved words -/

theorem select_reservedPhase (x : Ctx) : select x (.phase3 0b000) = .error .reservedPhase := rfl

/-- The decoder refuses an illegal `rx_slot` word in both variants (30_encoding.md R72). -/
theorem select_illegalRxSlot (x : Ctx) {w : BitVec 9} (hv : w.getLsbD 8 = false) (h0 : w ≠ 0) :
    select x (.rxSlot w) = .error .illegalRxSlot := by
  have refused : decode x (.rxSlot w) = .error .illegalRxSlot :=
    if_pos ((decodeRxSlot_eq_none_iff w).2 ⟨hv, h0⟩)
  simp only [select, reduceCtorEq, if_false, refused]

/-- In an admitted configuration a placed code that selects nothing makes the step refuse it by its name. -/
theorem step_refused {s : State} {c : Code} {rest : List Work} {e : CodeError} (hw : s.cfg.wf = true)
    (hp : s.pending = .op c :: rest) (h : ∀ x, select x c = .error e) : step s = .refused (.badCode e) := by
  rw [step_op hw hp, runCode, h]

/-- Settles O60: what the field decoders and the selection refuse. -/
theorem reservedWordsAreRefused : Obligations.ReservedWordsAreRefused := by
  refine ⟨rfl, rfl, fun m => by cases m <;> rfl, fun e => by cases e <;> rfl, fun d => by cases d <;> rfl,
    ?phase, ?rxSlot⟩
  case phase => exact fun _ _ hw hp => step_refused hw hp select_reservedPhase
  case rxSlot => exact fun _ _ _ hw hv h0 hp => step_refused hw hp fun x => select_illegalRxSlot x hv h0

end Sys2Proof.Machine
end

section
/-! PROOF. What a step does with the next placed or free stimulus and with a lone code, and which configurations it
refuses (00_scope.md R7). -/

namespace Sys2Proof.Machine

/-! ## A lone code -/

/-- A code that decodes to an operation selects just that one; the codes of phases 3 and 4 decode to none. -/
theorem select_of_decode {x : Ctx} {c : Code} {i : Instr} (h : decode x c = .ok i) : select x c = .ok [i] := by
  have not3 : c ≠ .phase3 0b011 := by rintro rfl; cases h
  have not4 : c ≠ .phase3 0b100 := by rintro rfl; cases h
  simp only [select, if_neg not3, if_neg not4, h]

theorem execAll_one (i : Instr) (s : State) : execAll [i] s = exec i s := by
  simp only [execAll, exec_eq]

/-- Settles O53: a code that decodes selects just the operation it decodes to. -/
theorem stepRunsTheDecodedOperation : Obligations.StepRunsTheDecodedOperation := by
  intro s c rest i hw hp h
  rw [step_op hw hp, ← execAll_one]
  simp only [runCode, State.setPending, select_of_decode h]

/-- Settles O54: a step with nothing placed takes the free stimulus as it would take it placed. -/
theorem stepRunsTheNextStimulus : Obligations.StepRunsTheNextStimulus := by
  refine ⟨fun s i rest hw hp => step_stim hw hp, fun s hw hp => ?_⟩
  have placed := step_stim (s := s.nextDraw.setPending [.stim (Config.freeStim s.draws)]) hw rfl
  have unplaced : s.nextDraw.setPending [] = s.nextDraw := by rw [← hp]; rfl
  exact (step_free hw hp).trans (unplaced ▸ placed.symm)

/-! ## Refusals -/

theorem exec_next (i : Instr) (s : State) : ∃ t, exec i s = .next t :=
  ⟨_, exec_eq i s⟩

theorem execAll_next : ∀ (is : List Instr) (s : State), ∃ t, execAll is s = .next t
  | [], s => ⟨s, rfl⟩
  | i :: is, s => by
    simp only [execAll, exec_eq]
    exact execAll_next is _

/-- Every stimulus answers a next state. -/
theorem stimulate_next (s : State) (x : Stim) : ∃ t, stimulate s x = .next t := by
  cases x with
  | tick i => exact exec_next .tick (s.setInputs i)
  | fatal => exact exec_next .halt (s.clearOutputs.setFatal true)
  | rst | rstDuring => exact ⟨_, rfl⟩

theorem stimulate_ne_badConfig (s : State) (x : Stim) : stimulate s x ≠ .refused .badConfig := by
  obtain ⟨t, e⟩ := stimulate_next s x
  rw [e]
  nofun

/-- A lone code can be refused for its bits only. -/
theorem runCode_ne_badConfig (s : State) (c : Code) : runCode s c ≠ .refused .badConfig := by
  unfold runCode
  split
  · rename_i is _
    obtain ⟨t, e⟩ := execAll_next is (s.present c)
    rw [e]
    nofun
  · simp

/-- The step refuses a configuration exactly where it is not admitted. -/
theorem step_eq_badConfig_iff (s : State) : step s = .refused .badConfig ↔ ¬ s.cfg.wf = true := by
  have checked {u : State} {r : Host.Outcome State Fault Refusal} (hr : r ≠ .refused .badConfig) :
      u.checked r = .refused .badConfig ↔ ¬ u.cfg.wf = true := by
    unfold State.checked
    split_ifs with hw <;> simp [hr, hw]
  unfold step
  split
  · exact checked (stimulate_ne_badConfig _ _)
  · exact checked (stimulate_ne_badConfig _ _)
  · exact checked (runCode_ne_badConfig _ _)

/-- The two admitted reset pairs are those whose 16 history bits are the reset level (10_state.md R36). -/
theorem resetPair_iff (h : Hist) (l : Level) :
    ((h = 0xFFFF ∧ l = true) ∨ (h = 0x0000 ∧ l = false)) ↔ ∀ k < 16, h.getLsbD k = l := by
  cases l with
  | true => simp [← hist_allOnes_iff]
  | false => simp [← hist_zero_iff]

/-- Settles O50: the admitted configurations are those that meet every constraint, and only the others are refused. -/
theorem brokenConfigurationIsRefused : Obligations.BrokenConfigurationIsRefused := by
  intro s
  rw [step_eq_badConfig_iff, wf_iff, resetPair_iff, not_iff_comm]
  simp only [not_or, not_lt, not_exists, not_and, ne_eq, not_not]
  tauto

end Sys2Proof.Machine
end

section
/-! PROOF. Reset (70_reset_and_hazards.md R230, R240) and the halted state (60_exceptions.md R201 to R204). -/

namespace Sys2Proof.Machine

/-! ## Reset -/

/-- Settles O1: the reset block is tabled field by field, its ramp value stored. -/
theorem resetLeavesTheTabledValues : Obligations.ResetLeavesTheTabledValues :=
  ⟨fun _ => ⟨rfl, store_holds _ _⟩, rfl, rfl⟩

/-- Settles O2: a placed reset restarts the block. -/
theorem resetStimulusRestoresTheBlock : Obligations.ResetStimulusRestoresTheBlock :=
  fun _ _ hw hp => step_stim hw hp

/-- A placed reset inside a tick interrupts what the whole tick would have led to. -/
theorem step_rstDuring {s : State} (hw : s.cfg.wf = true) (i : Inputs) (cut : Cut) (rest : List Work) :
    step { s with pending := .stim (.rstDuring i cut) :: rest } =
      .next ((tick { s with inp := i, pending := rest }).interrupted cut) :=
  step_stim (s := { s with pending := .stim (.rstDuring i cut) :: rest }) hw rfl

theorem interrupted_blk (whole : State) (cut : Cut) : (whole.interrupted cut).blk = Block.reset whole.cfg := rfl

theorem interrupted_tx (whole : State) (cut : Cut) : (whole.interrupted cut).tx = whole.tx.take cut.txKept := rfl

/-- Settles O3: the first bytes of a tick are those that a cut of their number keeps, and a cut drops entries and reorders none. -/
theorem resetInsideATickShowsAnyPrefix : Obligations.ResetInsideATickShowsAnyPrefix := by
  intro s i rest w hw hexec
  have whole : tick { s with inp := i, pending := rest } = w := Host.Outcome.next.inj hexec
  have cfg : w.cfg = s.cfg := whole ▸ tick_cfg _
  have cutShort (cut : Cut) : step { s with pending := .stim (.rstDuring i cut) :: rest } = .next (w.interrupted cut) :=
    whole ▸ step_rstDuring hw i cut rest
  have blk (cut : Cut) : (w.interrupted cut).blk = Block.reset s.cfg := by rw [interrupted_blk, cfg]
  constructor
  · intro pre b1 b2 hpre
    refine ⟨⟨pre.length, b1, b2, false⟩, _, cutShort _, blk _, ?_, rfl⟩
    rw [interrupted_tx]
    exact (List.prefix_iff_eq_take.1 hpre).symm
  · exact fun cut => ⟨_, cutShort cut, blk cut, List.take_prefix _ _, List.filter_sublist⟩

/-! ## Entering the halted state -/

theorem tick_fatal {s : State} (h : s.blk.halted = false) (f : s.inp.fatal = true) :
    tick s = s.clearOutputs.enterHalt := by
  simp [tick, h, f]

/-- Settles O4: a fatal tick clears the ports of the tick and enters the halted state. -/
theorem fatalTickOnlyHalts : Obligations.FatalTickOnlyHalts := fun _ h f =>
  (exec_running .tick h).trans (congrArg _ (tick_fatal h f))

theorem Block.setHalted_of_halted {b : Block} (h : b.halted = true) : b.setHalted = b := by
  rw [Block.setHalted, ← h]

/-- On `fatal` HALT enters the halted state, which in a halted block changes nothing (60_exceptions.md R201). -/
theorem exec_halt_fatal {s : State} (f : s.inp.fatal = true) : exec .halt s = .next s.enterHalt := by
  cases h : s.blk.halted with
  | false => exact (exec_running .halt h).trans (congrArg _ (if_pos f))
  | true =>
    rw [exec_halted .halt h, if_neg Instr.noConfusion, State.enterHalt, Block.setHalted_of_halted h]
    rfl

/-- Without `fatal`, or in a halted block, HALT does nothing. -/
theorem exec_halt_idle {s : State} (h : s.blk.halted = true ∨ s.inp.fatal = false) : exec .halt s = .next s := by
  rcases h with h | f
  · rw [exec_halted .halt h, if_neg Instr.noConfusion]
  · exact exec_of_effect_eq (i := .halt) (if_neg (Bool.eq_false_iff.1 f))

/-- Settles O5: HALT as a lone operation, and the fatal report, which is HALT with `fatal` at the port. -/
theorem haltOperationSetsHalted : Obligations.HaltOperationSetsHalted := by
  refine ⟨fun _ => rfl, fun _ _ => exec_halt_fatal, fun _ => exec_halt_idle, fun s rest hw hp => ?_⟩
  exact ⟨_, (step_stim hw hp).trans (exec_halt_fatal rfl), rfl, rfl, rfl, rfl⟩

/-! ## In the halted state -/

/-- Settles O8: a tick of a halted block only clears the ports of the tick. -/
theorem haltedTickChangesNothing : Obligations.HaltedTickChangesNothing := fun _ h =>
  (exec_halted .tick h).trans (congrArg _ (if_pos rfl))

theorem exec_halted_blk {i : Instr} {s t : State} (h : s.blk.halted = true) (e : exec i s = .next t) :
    t.blk = s.blk := by
  rw [exec_halted i h] at e
  cases e
  split <;> rfl

/-- Operations one after another leave a halted block as it is. -/
theorem execAll_halted_blk : ∀ {is : List Instr} {s t : State}, s.blk.halted = true → execAll is s = .next t →
    t.blk = s.blk
  | [], _, _, _, e => by cases e; rfl
  | i :: is, s, t, h, e => by
    obtain ⟨u, hu⟩ := exec_next i s
    have blk := exec_halted_blk h hu
    simp only [execAll, hu] at e
    exact (execAll_halted_blk (blk ▸ h) e).trans blk

theorem step_op_halted_blk {s t : State} {c : Code} {rest : List Work} (hw : s.cfg.wf = true)
    (h : s.blk.halted = true) (hp : s.pending = .op c :: rest) (e : step s = .next t) : t.blk = s.blk := by
  rw [step_op hw hp] at e
  obtain ⟨is, -, e⟩ := runCode_cases e
  have blk := present_blk (s.setPending rest) c
  exact (execAll_halted_blk (blk ▸ h) e).trans blk

/-- Settles O7: every operation, also inside a step, leaves a halted block as it is; both resets replace it. -/
theorem onlyResetLeavesTheHaltedState : Obligations.OnlyResetLeavesTheHaltedState := by
  intro s hw h
  refine ⟨?operation, ?tick, ?fatal, ?loneCode, ?reset, ?resetInside⟩
  case operation =>
    intro i
    obtain ⟨t, e⟩ := exec_next i s
    exact ⟨t, e, exec_halted_blk h e⟩
  case tick =>
    intro i rest hp
    exact ⟨_, (step_stim hw hp).trans (exec_halted .tick h), rfl, rfl⟩
  case fatal =>
    intro rest hp
    exact ⟨_, (step_stim hw hp).trans (exec_halt_fatal rfl), Block.setHalted_of_halted h, rfl⟩
  case loneCode => exact fun _ _ _ hp => step_op_halted_blk hw h hp
  case reset => exact fun _ hp => step_reset_running hw (by rw [State.nextWork, hp]; rfl)
  case resetInside => exact fun _ _ _ hp => step_reset_running hw (by rw [State.nextWork, hp]; rfl)

end Sys2Proof.Machine
end

section
/-! PROOF. DEB_UPDATE (40_debouncer.md R100, R101) and the debouncers over whole runs of ticks from reset (R106, R107). -/

namespace Sys2Proof.Machine

/-! ## DEB_UPDATE -/

/-- Settles O10: each instance shifts its sample in, and both write their own fields alone. -/
theorem debUpdateShiftsEachHistory : Obligations.DebUpdateShiftsEachHistory := by
  refine ⟨fun _ => rfl, fun s hs => ⟨_, exec_running .debUpdate hs, fun n => ?_, debUpdate_eq s⟩⟩
  simp only [effect, debUpdate_hist]
  exact ⟨shiftIn_bit_zero _ _, fun k hk => shiftIn_bit_succ _ _ hk⟩

theorem debUpdate_edge (n : Chan) (s : State) :
    (debUpdate s).edge n = (comparator (shiftIn (s.blk.hist n) (s.sampled n)) (s.blk.stable n)).2 := by
  rw [debUpdate_eq]
  cases n <;> rfl

/-- The edge that a change of a stable level is (40_debouncer.md R103, decision D3). -/
def levelChange : Level → Level → Edge
  | true, false => .falling
  | false, true => .rising
  | true, true | false, false => .none

theorem comparator_edge (h : Hist) (l : Level) : (comparator h l).2 = levelChange l (comparator h l).1 := by
  rcases comparator_cases h l with ⟨-, rfl, e⟩ | ⟨-, rfl, e⟩ | ⟨-, -, e⟩ <;> rw [e]
  · rfl
  · rfl
  · cases l <;> rfl

theorem levelChange_eq_none_iff (l m : Level) : levelChange l m = .none ↔ m = l := by
  cases l <;> cases m <;> simp [levelChange]

/-- Settles O12: the edge of each instance is the change of its level. -/
theorem edgeNamesTheChangeOfLevel : Obligations.EdgeNamesTheChangeOfLevel := by
  refine fun s hs => ⟨_, exec_running .debUpdate hs, fun n => ?_⟩
  simp only [effect, debUpdate_edge, debUpdate_stable, comparator_edge]
  cases s.blk.stable n <;> cases (comparator (shiftIn (s.blk.hist n) (s.sampled n)) _).1 <;> simp [levelChange]

/-! ## Runs of ticks -/

/-- The state after one tick with each of the inputs, in order. -/
def afterTicks (s : State) (is : List Inputs) : State :=
  is.foldl (fun t i => tick (t.setInputs i)) s

theorem runTicks_eq (is : List Inputs) : ∀ s : State, runTicks is s = .next (afterTicks s is) := by
  induction is with
  | nil => exact fun _ => rfl
  | cons i is ih => exact fun s => ih (tick (s.setInputs i))

theorem afterTicks_concat (s : State) (is : List Inputs) (x : Inputs) :
    afterTicks s (is ++ [x]) = tick ((afterTicks s is).setInputs x) :=
  List.foldl_concat ..

/-- A tick that is neither halted nor fatal is the seven phases on its inputs. -/
theorem tick_setInputs_running {s : State} {x : Inputs} (hs : s.blk.halted = false) (hx : x.fatal = false) :
    tick (s.setInputs x) = phases (s.setInputs x).clearOutputs :=
  tick_running (s := s.setInputs x) hs hx

/-- Ticks without `fatal` do not halt the block (60_exceptions.md R201). -/
theorem afterTicks_running {s : State} (hs : s.blk.halted = false) {is : List Inputs} (h : ∀ i ∈ is, i.fatal = false) :
    (afterTicks s is).blk.halted = false := by
  induction is generalizing s with
  | nil => exact hs
  | cons i is ih =>
    obtain ⟨hi, his⟩ := List.forall_mem_cons.1 h
    refine ih (s := tick (s.setInputs i)) ?_ his
    rw [tick_setInputs_running hs hi, phases_halted]
    exact hs

/-! ## The history of a run -/

/-- A history after samples, the latest last. -/
def shiftAll (h : Hist) (ps : List Level) : Hist :=
  ps.foldl shiftIn h

/-- Bit k of a history is the sample k before the latest, or the level that the history was full of. -/
theorem shiftAll_bit {h : Hist} {l : Level} (hl : ∀ k < 16, h.getLsbD k = l) (ps : List Level) :
    ∀ k < 16, (shiftAll h ps).getLsbD k = (ps.reverse[k]?).getD l := by
  induction ps using List.reverseRecOn with
  | nil => exact hl
  | append_singleton ps p ih =>
    intro k hk
    rw [shiftAll, List.foldl_concat, List.reverse_concat]
    cases k with
    | zero => exact shiftIn_bit_zero _ _
    | succ k => exact (shiftIn_bit_succ _ _ (Nat.lt_of_succ_lt_succ hk)).trans (ih k (Nat.lt_of_succ_lt hk))

theorem afterTicks_hist (n : Chan) {s : State} (hs : s.blk.halted = false) {is : List Inputs}
    (h : ∀ i ∈ is, i.fatal = false) :
    (afterTicks s is).blk.hist n = shiftAll (s.blk.hist n) (is.map (·.pin n)) := by
  induction is generalizing s with
  | nil => rfl
  | cons i is ih =>
    obtain ⟨hi, his⟩ := List.forall_mem_cons.1 h
    have tickEq := tick_setInputs_running hs hi
    refine (ih (s := tick (s.setInputs i)) ?_ his).trans ?_
    · rw [tickEq, phases_halted]
      exact hs
    · rw [tickEq, phases_hist]
      rfl

/-- Every bit of the reset histories of an admitted configuration is the reset level (10_state.md R36). -/
theorem reset_hist_bit {c : Config} (hw : c.wf = true) (n : Chan) :
    ∀ k < 16, ((State.resetOf c).blk.hist n).getLsbD k = c.stableInit := by
  obtain ⟨-, -, -, -, -, -, -, pair⟩ := (wf_iff c).1 hw
  have hist : (State.resetOf c).blk.hist n = c.histInit := by cases n <;> rfl
  rw [hist]
  exact (resetPair_iff _ _).1 pair

theorem afterTicks_hist_bit {c : Config} (hw : c.wf = true) (n : Chan) {is : List Inputs}
    (h : ∀ i ∈ is, i.fatal = false) : ∀ k < 16, ((afterTicks (State.resetOf c) is).blk.hist n).getLsbD k =
      ((is.reverse.map (·.pin n))[k]?).getD c.stableInit := by
  rw [afterTicks_hist n rfl h, List.map_reverse]
  exact shiftAll_bit (reset_hist_bit hw n) _

/-- Settles O14: the samples of the run, shifted one by one into the reset history. -/
theorem historyHoldsTheLastSamples : Obligations.HistoryHoldsTheLastSamples := fun _ n is hw h =>
  ⟨_, runTicks_eq is _, afterTicks_hist_bit hw n h⟩

/-! ## When an edge is confirmed -/

/-- The comparator's part of any tick: a halted or fatal one leaves the levels and shows no edge. -/
theorem tick_edge (n : Chan) (s : State) :
    (tick s).edge n = levelChange (s.blk.stable n) ((tick s).blk.stable n) := by
  rcases tick_cases s with ⟨-, e⟩ | ⟨-, -, e⟩ | ⟨-, -, e⟩ <;> rw [e]
  · cases n <;> exact ((levelChange_eq_none_iff _ _).2 rfl).symm
  · cases n <;> exact ((levelChange_eq_none_iff _ _).2 rfl).symm
  · rw [phases_edge, phases_stable, comparator_edge]
    rfl

/-- The level of an instance changes exactly on 16 equal bits of the other level (40_debouncer.md R102). -/
theorem tick_stable_ne_iff (n : Chan) {s : State} {x : Inputs} (hs : s.blk.halted = false) (hx : x.fatal = false) :
    (tick (s.setInputs x)).blk.stable n ≠ s.blk.stable n ↔
      ∃ l, l ≠ s.blk.stable n ∧ ∀ k < 16, ((tick (s.setInputs x)).blk.hist n).getLsbD k = l := by
  rw [tick_setInputs_running hs hx, phases_stable, phases_hist]
  exact comparator_ne_iff _ _

/-- The 16 bits that `ps`, the latest first, leave in a history full of `l0` hold one level exactly when the last 16 of
`ps` do and, where these are fewer, `l0` is that level too. -/
theorem bits_eq_iff {ps : List Level} {l0 l : Level} :
    (∀ k < 16, (ps[k]?).getD l0 = l) ↔ (∀ p ∈ ps.take 16, p = l) ∧ (ps.length < 16 → l0 = l) := by
  constructor
  · refine fun bits => ⟨fun p hp => ?_, fun few => ?_⟩
    · obtain ⟨k, hk, rfl⟩ := List.mem_take_iff_getElem.1 hp
      simpa [(lt_min_iff.1 hk).2] using bits k (lt_min_iff.1 hk).1
    · simpa using bits ps.length few
  · rintro ⟨last, few⟩ k hk
    cases hp : ps[k]? with
    | none => exact few ((List.getElem?_eq_none_iff.1 hp).trans_lt hk)
    | some p => exact last p (List.mem_of_getElem? ((List.getElem?_take_of_lt hk).trans hp))

/-- Until 16 samples are taken the stable level is that of reset: the oldest bit of the history still holds it. -/
theorem afterTicks_stable_of_few {c : Config} (hw : c.wf = true) (n : Chan) {is : List Inputs}
    (h : ∀ i ∈ is, i.fatal = false) (few : is.length < 16) :
    (afterTicks (State.resetOf c) is).blk.stable n = c.stableInit := by
  induction is using List.reverseRecOn with
  | nil => cases n <;> rfl
  | append_singleton is x ih =>
    obtain ⟨his, hx⟩ := List.forall_mem_append.1 h
    have before := ih his (by rw [List.length_append] at few; omega)
    have oldest := afterTicks_hist_bit hw n h 15 (by decide)
    rw [List.getElem?_eq_none (by simpa using Nat.le_of_lt_succ few)] at oldest
    rw [afterTicks_concat] at oldest ⊢
    by_contra changed
    rw [← before, ← ne_eq, tick_stable_ne_iff n (afterTicks_running rfl his) (hx x List.mem_cons_self)] at changed
    obtain ⟨l, other, bits⟩ := changed
    exact other (by rw [before, ← bits 15 (by decide), oldest, Option.getD_none])

/-- Settles O15: an edge is a change of level, so 16 equal bits of the other level, and fewer samples leave a bit of
reset among them. -/
theorem edgeExactlyOnSixteenSamples : Obligations.EdgeExactlyOnSixteenSamples := by
  intro c n is x hw h hx
  have run : ∀ i ∈ is ++ [x], i.fatal = false := List.forall_mem_append.2 ⟨h, by simpa using hx⟩
  have bits := afterTicks_hist_bit hw n run
  rw [afterTicks_concat, List.reverse_concat] at bits
  refine ⟨_, _, runTicks_eq is _, rfl, ?_⟩
  rw [tick_edge, ne_eq, levelChange_eq_none_iff]
  refine (tick_stable_ne_iff n (afterTicks_running rfl h) hx).trans ?_
  have unanimous (l : Level) :
      (∀ k < 16, ((tick ((afterTicks (State.resetOf c) is).setInputs x)).blk.hist n).getLsbD k = l) ↔
        (∀ i ∈ (x :: is.reverse).take 16, i.pin n = l) ∧ (is.length + 1 < 16 → c.stableInit = l) := by
    rw [forall₂_congr fun k hk => by rw [bits k hk], bits_eq_iff, ← List.map_take, List.forall_mem_map,
      List.length_map, List.length_cons, List.length_reverse]
  constructor
  · rintro ⟨l, other, hl⟩
    obtain ⟨last, few⟩ := (unanimous l).1 hl
    refine ⟨Nat.le_of_not_lt fun lt => other ?_, l, other, last⟩
    rw [afterTicks_stable_of_few hw n h (Nat.lt_of_succ_lt lt), few lt]
  · rintro ⟨enough, l, other, last⟩
    exact ⟨l, other, (unanimous l).2 ⟨last, fun lt => absurd lt (Nat.not_lt.2 enough)⟩⟩

/-! ## Edges alternate -/

/-- The k-th edge of an instance that starts at level `l`, where edges alternate: from 1 the first is Falling. -/
def alternating (l : Level) (k : Nat) : Edge :=
  if (k % 2 = 0) = (l = true) then .falling else .rising

theorem alternating_zero (l : Level) : alternating l 0 = levelChange l !l := by
  cases l <;> rfl

theorem alternating_succ (l : Level) (k : Nat) : alternating l (k + 1) = alternating (!l) k := by
  have parity : (k + 1) % 2 = 0 ↔ ¬ k % 2 = 0 := by omega
  cases l <;> simp [alternating, parity]

/-- The edges of a run alternate from the stable level that it starts with. -/
theorem edgeTrace_getElem? (n : Chan) : ∀ (is : List Inputs) (s : State) (k : Nat), k < (edgeTrace n is s).length →
    (edgeTrace n is s)[k]? = some (alternating (s.blk.stable n) k)
  | [], _, _, hk => absurd hk (Nat.not_lt_zero _)
  | i :: is, s, k, hk => by
    have ih := edgeTrace_getElem? n is (tick (s.setInputs i))
    have edge : (tick (s.setInputs i)).edge n = _ := tick_edge n (s.setInputs i)
    simp only [edgeTrace, edge, levelChange_eq_none_iff, State.setInputs_blk] at hk ⊢
    by_cases same : (tick (s.setInputs i)).blk.stable n = s.blk.stable n
    · rw [if_pos same, List.nil_append] at hk ⊢
      rw [ih k hk, same]
    · have flipped : (tick (s.setInputs i)).blk.stable n = !s.blk.stable n := Bool.eq_not.2 same
      rw [if_neg same, List.singleton_append] at hk ⊢
      cases k with
      | zero => rw [List.getElem?_cons_zero, flipped, alternating_zero]
      | succ k => rw [List.getElem?_cons_succ, ih k (Nat.lt_of_succ_lt_succ hk), flipped, alternating_succ]

/-- Settles O16: both instances start at the reset level. -/
theorem edgesAlternateFromReset : Obligations.EdgesAlternateFromReset := by
  intro c n is k hk
  have level : (State.resetOf c).blk.stable n = c.stableInit := by cases n <;> rfl
  rw [edgeTrace_getElem? n is _ k hk, level]
  rfl

end Sys2Proof.Machine
end

section
/-! PROOF. The frames of the reports (41_command_protocol.md R127 to R129), the commands and their modes (R120 to R126),
and the duties that a mode selects (43_output_mapper.md R160 to R164). -/

namespace Sys2Proof.Machine

/-! ## The reports -/

theorem report_of_falling {i : Chan} {s : State} (tag : Byte) (h : s.edge i = .falling) :
    report i tag s = { s with tx := s.tx ++ tag :: s.cfg.lineTerm } := by
  rw [report_eq, if_pos h]

/-- Settles O17: on a Falling edge a report appends its frame, and without one it has no effect. -/
theorem reportsAppendOneFrame : Obligations.ReportsAppendOneFrame := by
  refine ⟨decode_tag1, fun _ => decode_tag2, ⟨rfl, rfl, rfl, rfl⟩, fun s hs => ⟨fun h => ?_, fun h => ?_, fun h => ?_,
    fun h => ?_⟩⟩
  · exact (exec_running .rptBtn1 hs).trans (congrArg _ (report_of_falling (i := .one) _ h))
  · exact exec_of_effect_eq (i := .rptBtn1) (report_of_ne_falling (i := .one) _ h)
  · exact (exec_running .rptBtn2 hs).trans (congrArg _ (report_of_falling (i := .two) _ h))
  · exact exec_of_effect_eq (i := .rptBtn2) (report_of_ne_falling (i := .two) _ h)

/-- A frame sent or not sent is at most one frame long (44_main_loop.md R185). -/
theorem length_frame_ite_le (p : Prop) [Decidable p] (tag : Byte) (term : List Byte) :
    (if p then tag :: term else []).length ≤ 1 + term.length := by
  split_ifs
  · rw [List.length_cons, Nat.add_comm]
  · exact Nat.zero_le _

/-- Settles O18: the bytes of a tick are the frames of its Falling edges, input 1 first. -/
theorem tickSendsFrameOneBeforeFrameTwo : Obligations.TickSendsFrameOneBeforeFrameTwo := by
  intro s hs hf
  refine ⟨_, exec_tick_running hs hf, phases_clearOutputs_tx s, ?_⟩
  rw [phases_clearOutputs_tx, List.length_append, Nat.two_mul]
  exact Nat.add_le_add (length_frame_ite_le _ _ _) (length_frame_ite_le _ _ _)

/-! ## The commands alone -/

/-- Where the slot holds its byte, variant 1 takes the byte and writes the mode (41_command_protocol.md R120). -/
theorem command_selected {b : Byte} {m : Mode} {s : State} (hv : s.cfg.variant = .v1) (hr : s.inp.rx = some b) :
    command b m s = s.rxTaken.setBlk (s.blk.setMode m) :=
  if_pos (by simp [received, hv, hr])

theorem received_eq_false {p : Byte → Bool} {s : State}
    (h : s.cfg.variant = .v2 ∨ ∀ b, s.inp.rx = some b → p b = false) : received p s = false := by
  unfold received
  rcases h with hv | hr
  · rw [hv]; rfl
  · cases hs : s.inp.rx with
    | none => exact Bool.and_false _
    | some b => rw [Option.any_some, hr b hs, Bool.and_false]

/-- With another slot, or in variant 2, a command row does nothing (41_command_protocol.md R125; log 12). -/
theorem command_unselected {b : Byte} {m : Mode} {s : State} (h : s.cfg.variant = .v2 ∨ s.inp.rx ≠ some b) :
    command b m s = s := by
  refine if_neg (Bool.eq_false_iff.1 (received_eq_false (h.imp_right fun other b' hb' => ?_)))
  exact beq_eq_false_iff_ne.2 fun eq => other (eq ▸ hb')

theorem cmdOther_unselected {b : Byte} {s : State}
    (h : s.cfg.variant = .v2 ∨ s.inp.rx ≠ some b ∨ b = 0x73 ∨ b = 0x6E ∨ b = 0x62) : cmdOther b s = s := by
  refine if_neg (Bool.eq_false_iff.1 (received_eq_false (h.imp_right fun other b' hb' => ?_)))
  rw [Bool.and_eq_false_imp]
  intro eq
  obtain rfl := beq_iff_eq.1 eq
  rcases other with ne | rfl | rfl | rfl
  · exact absurd hb' ne
  all_goals rfl

/-- Settles O23: an unselected command row has no effect, and RX_NONE has none at all. -/
theorem unselectedCommandsDoNothing : Obligations.UnselectedCommandsDoNothing := fun _ =>
  ⟨fun h => exec_of_effect_eq (i := .cmdS) (command_unselected h),
    fun h => exec_of_effect_eq (i := .cmdN) (command_unselected h),
    fun h => exec_of_effect_eq (i := .cmdB) (command_unselected h),
    fun b h => exec_of_effect_eq (i := .cmdOther b) (cmdOther_unselected h),
    fun _ => exec_of_effect_eq (i := .rxNone) rfl⟩

/-! ## The duties of a mode in variant 1 -/

theorem muxDuties_startOnly_holds {c : Config} (hv : c.variant = .v1) (r : Nat) :
    c.holds c.soDuty1 (muxDuties c .startOnly r).1 ∧
      c.holds (c.soBase + r / c.soDiv) (muxDuties c .startOnly r).2 := by
  unfold muxDuties
  rw [hv]
  exact ⟨store_holds _ _, store_holds _ _⟩

theorem muxDuties_on_holds {c : Config} (hv : c.variant = .v1) (r : Nat) :
    c.holds (c.onBase + r / c.onDiv) (muxDuties c .on r).1 ∧ (muxDuties c .on r).2 = (muxDuties c .on r).1 := by
  unfold muxDuties
  rw [hv]
  exact ⟨store_holds _ _, rfl⟩

theorem muxDuties_off_holds {c : Config} (hv : c.variant = .v1) (r : Nat) :
    c.holds c.offDuty (muxDuties c .off r).1 ∧ (muxDuties c .off r).2 = (muxDuties c .off r).1 := by
  unfold muxDuties
  rw [hv]
  exact ⟨store_holds _ _, rfl⟩

theorem nextMode_v1 {s : State} (hv : s.cfg.variant = .v1) : nextMode s = (slotMode s.inp.rx).getD s.blk.mode := by
  unfold nextMode
  rw [hv]

theorem nextMode_v2 {s : State} (hv : s.cfg.variant = .v2) : nextMode s = s.blk.mode := by
  unfold nextMode
  rw [hv]

/-- Settles O40: the mux of a tick reads the mode of phase 4 and the ramp that phase 6 has not yet advanced. -/
theorem dutiesUseTheNewModeAndTheOldRamp : Obligations.DutiesUseTheNewModeAndTheOldRamp := by
  intro s hs hf hv
  refine ⟨_, _, _, exec_tick_running hs hf, phases_duty1 _, phases_duty2 _, ?_, ?_, ?_, ?_⟩ <;> rw [phases_mode]
  · exact nextMode_v1 (s := s.clearOutputs) hv
  · intro mode
    rw [mode]
    exact muxDuties_startOnly_holds hv _
  · intro mode
    rw [mode]
    exact muxDuties_on_holds hv _
  · intro mode
    rw [mode]
    exact muxDuties_off_holds hv _

/-- Settles O21: a selected row takes its byte and writes its mode, and a tick's duties are those of the mode that its
slot selects. -/
theorem commandsWriteTheMode : Obligations.CommandsWriteTheMode := by
  refine ⟨?decodes, ?selected, ?unselected, ?inTick⟩
  case decodes => exact fun _ hx => ⟨decode_cmdS hx, decode_cmdN hx, decode_cmdB hx⟩
  case selected =>
    exact fun _ hs hv => ⟨fun hr => (exec_running .cmdS hs).trans (congrArg _ (command_selected hv hr)),
      fun hr => (exec_running .cmdN hs).trans (congrArg _ (command_selected hv hr)),
      fun hr => (exec_running .cmdB hs).trans (congrArg _ (command_selected hv hr))⟩
  case unselected =>
    intro s
    obtain ⟨cmdS, cmdN, cmdB, -⟩ := unselectedCommandsDoNothing s
    exact ⟨fun h => ⟨s, cmdS h, rfl⟩, fun h => ⟨s, cmdN h, rfl⟩, fun h => ⟨s, cmdB h, rfl⟩⟩
  case inTick =>
    intro s hs hf hv
    obtain ⟨t, d1, d2, e, h1, h2, mode, startOnly, on, off⟩ := dutiesUseTheNewModeAndTheOldRamp s hs hf hv
    have selects {r : Option Byte} {m : Mode} (hr : s.inp.rx = r) (hm : (slotMode r).getD s.blk.mode = m) :
        t.blk.mode = m := by rw [mode, hr, hm]
    refine ⟨t, d1, d2, e, h1, h2, fun hr => ?_, fun hr => ?_, fun hr => ?_, fun hr => selects hr rfl⟩
    · have modeS := selects hr rfl
      exact ⟨modeS, startOnly modeS⟩
    · have modeN := selects hr rfl
      obtain ⟨duty1, rfl⟩ := off modeN
      exact ⟨modeN, duty1, duty1⟩
    · have modeB := selects hr rfl
      obtain ⟨duty1, rfl⟩ := on modeB
      exact ⟨modeB, rfl, duty1⟩

/-! ## The mode over a run -/

theorem tick_mode_running {s : State} {x : Inputs} (hv : s.cfg.variant = .v1) (hs : s.blk.halted = false)
    (hx : x.fatal = false) : (tick (s.setInputs x)).blk.mode = (slotMode x.rx).getD s.blk.mode := by
  rw [tick_setInputs_running hs hx, phases_mode]
  exact nextMode_v1 hv

theorem afterTicks_mode : ∀ {is : List Inputs} {s : State}, s.cfg.variant = .v1 → s.blk.halted = false →
    (∀ i ∈ is, i.fatal = false) → (afterTicks s is).blk.mode = lastMode s.blk.mode is
  | [], _, _, _, _ => rfl
  | i :: is, s, hv, hs, h => by
    obtain ⟨hi, his⟩ := List.forall_mem_cons.1 h
    have variant : (tick (s.setInputs i)).cfg.variant = .v1 := by rw [tick_cfg]; exact hv
    have running := afterTicks_running hs (is := [i]) (by simpa using hi)
    rw [lastMode, ← tick_mode_running hv hs hi]
    exact afterTicks_mode (s := tick (s.setInputs i)) variant running his

/-- Settles O26: each tick takes the mode of its slot, or keeps the one before. -/
theorem lastRecognisedByteWins : Obligations.LastRecognisedByteWins := fun s is hv hs h =>
  ⟨_, runTicks_eq is s, afterTicks_mode hv hs h⟩

/-! ## Variant 2 -/

theorem nextRx_v2 {s : State} (hv : s.cfg.variant = .v2) : nextRx s = s.inp.rx := by
  unfold nextRx
  rw [hv]

/-- In variant 2 the seven phases read the receive slot nowhere and leave it (41_command_protocol.md R125). -/
theorem phases_setRx_v2 {s : State} (hv : s.cfg.variant = .v2) (r : Option Byte) :
    phases (s.setRx r) = (phases s).setRx r := by
  rw [phases_eq, phases_eq, nextMode_v2 hv, nextMode_v2 (s := s.setRx r) hv, nextRx_v2 (s := s.setRx r) hv]
  rfl

theorem tick_setRx_v2 {s : State} (hv : s.cfg.variant = .v2) (r : Option Byte) :
    tick (s.setRx r) = (tick s).setRx r := by
  cases h : s.blk.halted with
  | true =>
    rw [tick_halted h, tick_halted (s := s.setRx r) h]
    rfl
  | false =>
    cases f : s.inp.fatal with
    | true =>
      rw [tick_fatal h f, tick_fatal (s := s.setRx r) h f]
      rfl
    | false =>
      rw [tick_running h f, tick_running (s := s.setRx r) h f]
      exact phases_setRx_v2 (s := s.clearOutputs) hv r

theorem tick_v2 {s : State} (hv : s.cfg.variant = .v2) :
    (tick s).inp.rx = s.inp.rx ∧ (tick s).blk.mode = s.blk.mode := by
  rcases tick_cases s with ⟨-, e⟩ | ⟨-, -, e⟩ | ⟨-, -, e⟩ <;> rw [e]
  · exact ⟨rfl, rfl⟩
  · exact ⟨rfl, rfl⟩
  · rw [phases_rx, phases_mode, nextMode_v2 (s := s.clearOutputs) hv, nextRx_v2 (s := s.clearOutputs) hv]
    exact ⟨rfl, rfl⟩

/-- Settles O25: a tick with another slot is the same tick with that slot. -/
theorem variantTwoIgnoresBytes : Obligations.VariantTwoIgnoresBytes := by
  intro s r hv
  obtain ⟨rx, mode⟩ := tick_v2 hv
  have other : exec .tick (s.setRx r) = .next ((tick s).setRx r) := congrArg _ (tick_setRx_v2 hv r)
  exact ⟨_, _, rfl, other, rfl, rfl, rfl, rx, rfl, mode⟩

end Sys2Proof.Machine
end

section
/-! PROOF. The advances of the ramp: saturation and flips (42_brightness_ramp.md R140, R141, R148), the bounds of
variant 2 (R146), and the period with a step of 1 (R147). -/

namespace Sys2Proof.Machine

/-! ## The two advances, branch by branch -/

section

variable {c : Config} {v : Nat}

theorem rampNextV1_inc_over (h : v + c.step > c.v1Max) : rampNextV1 c v .inc = (c.store c.v1Max, .dec) :=
  if_pos h

theorem rampNextV1_inc (h : v + c.step ≤ c.v1Max) : rampNextV1 c v .inc = (c.store (v + c.step), .inc) :=
  if_neg (Nat.not_lt.2 h)

theorem rampNextV1_dec_under (h : v < c.v1Min + c.step) : rampNextV1 c v .dec = (c.store c.v1Min, .inc) :=
  if_pos h

theorem rampNextV1_dec (h : c.v1Min + c.step ≤ v) : rampNextV1 c v .dec = (c.store (v - c.step), .dec) :=
  if_neg (Nat.not_lt.2 h)

theorem rampNextV2_above (d : Dir) (h : v > c.v2Ub) : rampNextV2 c v d = (c.store c.v2Ub, .dec) :=
  if_pos h

theorem rampNextV2_below (d : Dir) (h : v < c.v2Lb) : rampNextV2 c v d = (c.store c.v2Lb, .inc) := by
  have notAbove : ¬ v > c.v2Ub := Nat.not_lt.2 (h.le.trans (Nat.sub_le _ _))
  exact (if_neg notAbove).trans (if_pos h)

theorem rampNextV2_inc_over (hr : c.inV2Range v) (h : v + c.step > c.v2Ub) :
    rampNextV2 c v .inc = (c.store c.v2Ub, .dec) :=
  (if_neg (Nat.not_lt.2 hr.2)).trans ((if_neg (Nat.not_lt.2 hr.1)).trans (if_pos h))

theorem rampNextV2_inc (hr : c.inV2Range v) (h : v + c.step ≤ c.v2Ub) :
    rampNextV2 c v .inc = (c.store (v + c.step), .inc) :=
  (if_neg (Nat.not_lt.2 hr.2)).trans ((if_neg (Nat.not_lt.2 hr.1)).trans (if_neg (Nat.not_lt.2 h)))

theorem rampNextV2_dec_under (hr : c.inV2Range v) (h : v < c.v2Lb + c.step) :
    rampNextV2 c v .dec = (c.store c.v2Lb, .inc) :=
  (if_neg (Nat.not_lt.2 hr.2)).trans ((if_neg (Nat.not_lt.2 hr.1)).trans (if_pos h))

theorem rampNextV2_dec (hr : c.inV2Range v) (h : c.v2Lb + c.step ≤ v) :
    rampNextV2 c v .dec = (c.store (v - c.step), .dec) :=
  (if_neg (Nat.not_lt.2 hr.2)).trans ((if_neg (Nat.not_lt.2 hr.1)).trans (if_neg (Nat.not_lt.2 h)))

end

/-! ## Saturation -/

theorem decode_ramp_v1 {x : Ctx} (hx : x.variant = .v1) : decode x (.phase3 0b110) = .ok .rampAdvV1 := by
  rw [decode_ramp, hx]
  rfl

theorem decode_ramp_v2 {x : Ctx} (hx : x.variant = .v2) : decode x (.phase3 0b110) = .ok .rampAdvV2 := by
  rw [decode_ramp, hx]
  rfl

/-- With the bounds 0 and 255 in a register of 8 bits every result fits (42_brightness_ramp.md R140). -/
theorem rampNextV1_source {c : Config} (hmin : c.v1Min = 0) (hmax : c.v1Max = 255) (hw : c.valW = 8) {v : Nat}
    (hv : v ≤ 255) (d : Dir) : rampNextV1 c v d = match d with
      | .inc => if v + c.step > 255 then (255, .dec) else (v + c.step, .inc)
      | .dec => if v < c.step then (0, .inc) else (v - c.step, .dec) := by
  have fits {n : Nat} (hn : n ≤ 255) : c.store n = n := store_eq (hn.trans_eq (regMax_eight hw).symm)
  cases d with
  | inc =>
    simp only [rampNextV1, hmax]
    split_ifs with h
    · rw [fits le_rfl]
    · rw [fits (Nat.not_lt.1 h)]
  | dec =>
    simp only [rampNextV1, hmin, Nat.zero_add]
    split_ifs with h
    · rw [fits (Nat.zero_le _)]
    · rw [fits ((Nat.sub_le _ _).trans hv)]

/-- A branch that stores `n` with direction `d` holds `n` and leaves `d`. -/
theorem stored_holds {c : Config} {n : Nat} {d : Dir} {r : Nat × Dir} (h : r = (c.store n, d)) :
    c.holds n r.1 ∧ r.2 = d := by
  rw [h]
  exact ⟨store_holds _ _, rfl⟩

/-- Settles O27: the four branches of the advance, and its results in a register of 8 bits. -/
theorem rampV1SaturatesAndFlips : Obligations.RampV1SaturatesAndFlips := by
  refine ⟨fun _ => decode_ramp_v1, ⟨rfl, rfl, rfl, rfl, rfl⟩, fun s hs =>
    ⟨_, _, exec_running .rampAdvV1 hs, fun up h => stored_holds ?incOver, fun up h => stored_holds ?inc,
      fun down h => stored_holds ?decUnder, fun down h => stored_holds ?dec,
      fun hmin hmax hw hv => rampNextV1_source hmin hmax hw hv _⟩⟩
  case incOver => rw [up, rampNextV1_inc_over h]
  case inc => rw [up, rampNextV1_inc h]
  case decUnder => rw [down, rampNextV1_dec_under h]
  case dec => rw [down, rampNextV1_dec h]

/-- Settles O28: the six branches of the advance. -/
theorem rampV2ClampsSaturatesAndFlips : Obligations.RampV2ClampsSaturatesAndFlips := by
  refine ⟨fun _ => decode_ramp_v2, ?_⟩
  rintro s hs _ _ _ rfl rfl rfl
  refine ⟨_, _, exec_running .rampAdvV2 hs, fun h => stored_holds (rampNextV2_above _ h),
    fun h => stored_holds (rampNextV2_below _ h), fun lower upper up h => stored_holds ?incOver,
    fun lower upper up h => stored_holds ?inc, fun lower upper down h => stored_holds ?decUnder,
    fun lower upper down h => stored_holds ?dec⟩
  case incOver => rw [up, rampNextV2_inc_over ⟨lower, upper⟩ h]; rfl
  case inc => rw [up, rampNextV2_inc ⟨lower, upper⟩ h]
  case decUnder => rw [down, rampNextV2_dec_under ⟨lower, upper⟩ h]; rfl
  case dec => rw [down, rampNextV2_dec ⟨lower, upper⟩ h]

/-- Settles O29: a running tick of variant 2 advances the ramp into its bounds. -/
theorem tickPutsTheV2RampInBounds : Obligations.TickPutsTheV2RampInBounds := fun s hfit hv hs hf =>
  ⟨_, exec_tick_running hs hf, phases_rampV_inV2Range (s := s.clearOutputs) hv hfit⟩

/-! ## Flips -/

theorem rampNextV1_flip {c : Config} {v : Nat} {d : Dir} (h : (rampNextV1 c v d).2 ≠ d) :
    ((rampNextV1 c v d).2 = .dec ∧ c.holds c.v1Max (rampNextV1 c v d).1 ∧ v + c.step > c.v1Max) ∨
    ((rampNextV1 c v d).2 = .inc ∧ c.holds c.v1Min (rampNextV1 c v d).1 ∧ v < c.v1Min + c.step) := by
  rcases rampNextV1_cases c v d with ⟨-, past, holds, dec⟩ | ⟨hd, -, -, inc⟩ | ⟨-, under, holds, inc⟩ | ⟨hd, -, -, dec⟩
  · exact .inl ⟨dec, holds, past⟩
  · exact absurd (inc.trans hd.symm) h
  · exact .inr ⟨inc, holds, under⟩
  · exact absurd (dec.trans hd.symm) h

theorem rampNextV2_flip {c : Config} {v : Nat} {d : Dir} (h : (rampNextV2 c v d).2 ≠ d) :
    ((rampNextV2 c v d).2 = .dec ∧ c.holds c.v2Ub (rampNextV2 c v d).1 ∧ v + c.step > c.v2Ub) ∨
    ((rampNextV2 c v d).2 = .inc ∧ c.holds c.v2Lb (rampNextV2 c v d).1 ∧ v < c.v2Lb + c.step) := by
  rcases rampNextV2_cases c v d with ⟨above, holds, dec⟩ | ⟨below, holds, inc⟩ | ⟨-, -, past, holds, dec⟩ |
    ⟨-, hd, -, -, inc⟩ | ⟨-, -, under, holds, inc⟩ | ⟨-, hd, -, -, dec⟩
  · exact .inl ⟨dec, holds, Nat.lt_add_right _ above⟩
  · exact .inr ⟨inc, holds, Nat.lt_add_right _ below⟩
  · exact .inl ⟨dec, holds, past⟩
  · exact absurd (inc.trans hd.symm) h
  · exact .inr ⟨inc, holds, under⟩
  · exact absurd (dec.trans hd.symm) h

/-- Settles O31: an advance flips in its saturating branches alone. -/
theorem directionFlipsOnlyAtABoundary : Obligations.DirectionFlipsOnlyAtABoundary := fun _ hs =>
  ⟨⟨_, exec_running .rampAdvV1 hs, rampNextV1_flip⟩, _, exec_running .rampAdvV2 hs, rampNextV2_flip⟩

/-! ## The triangle of a ramp that steps by 1 -/

/-- A ramp value and direction whose value is in the bounds. -/
def Bounded (lo hi : Nat) (r : Nat × Dir) : Prop :=
  lo ≤ r.1 ∧ r.1 ≤ hi

/-- One advance by 1 between two bounds: at a bound it turns and keeps the value (42_brightness_ramp.md R147). -/
def bounce (lo hi : Nat) : Nat × Dir → Nat × Dir
  | (v, .inc) => if v < hi then (v + 1, .inc) else (hi, .dec)
  | (v, .dec) => if lo < v then (v - 1, .dec) else (lo, .inc)

/-- How many advances lead from the lower bound upwards to this value and direction. -/
def place (lo hi : Nat) : Nat × Dir → Nat
  | (v, .inc) => v - lo
  | (v, .dec) => 2 * (hi - lo) + 1 - (v - lo)

section

variable {lo hi : Nat} {r q : Nat × Dir}

theorem bounce_bounded (h : Bounded lo hi r) : Bounded lo hi (bounce lo hi r) := by
  obtain ⟨v, d⟩ := r
  obtain ⟨lower, upper⟩ := h
  cases d <;> simp only [bounce] <;> split_ifs <;> constructor <;> simp only <;> omega

theorem place_lt (h : Bounded lo hi r) : place lo hi r < 2 * (hi - lo + 1) := by
  obtain ⟨v, d⟩ := r
  obtain ⟨lower, upper⟩ := h
  cases d <;> simp only [place] at * <;> omega

theorem place_injOn (hr : Bounded lo hi r) (hq : Bounded lo hi q) (h : place lo hi r = place lo hi q) : r = q := by
  obtain ⟨v, d⟩ := r
  obtain ⟨w, e⟩ := q
  obtain ⟨lower, upper⟩ := hr
  obtain ⟨lower', upper'⟩ := hq
  cases d <;> cases e <;> simp only [place, Prod.mk.injEq, and_true, reduceCtorEq, and_false] at * <;> omega

/-- An advance moves one place on, and from the last place to the first. -/
theorem place_bounce (h : Bounded lo hi r) :
    place lo hi (bounce lo hi r) = (place lo hi r + 1) % (2 * (hi - lo + 1)) := by
  obtain ⟨v, d⟩ := r
  obtain ⟨lower, upper⟩ := h
  cases d with
  | inc =>
    simp only [bounce, place] at *
    rw [Nat.mod_eq_of_lt (by omega)]
    split_ifs <;> simp only <;> omega
  | dec =>
    simp only [bounce, place] at *
    split_ifs with room
    · rw [Nat.mod_eq_of_lt (by omega)]
      simp only
      omega
    · have last : 2 * (hi - lo) + 1 - (v - lo) + 1 = 2 * (hi - lo + 1) := by omega
      rw [last, Nat.mod_self]
      exact Nat.sub_self lo

theorem iterate_bounce_bounded (h : Bounded lo hi r) (n : Nat) : Bounded lo hi ((bounce lo hi)^[n] r) := by
  induction n with
  | zero => exact h
  | succ n ih =>
    rw [Function.iterate_succ_apply']
    exact bounce_bounded ih

theorem place_iterate_bounce (h : Bounded lo hi r) (n : Nat) :
    place lo hi ((bounce lo hi)^[n] r) = (place lo hi r + n) % (2 * (hi - lo + 1)) := by
  induction n with
  | zero => exact (Nat.mod_eq_of_lt (place_lt h)).symm
  | succ n ih =>
    rw [Function.iterate_succ_apply', place_bounce (iterate_bounce_bounded h n), ih, Nat.mod_add_mod, Nat.add_assoc]

/-- The advances return exactly after the multiples of twice the number of values. -/
theorem iterate_bounce_eq_self_iff (h : Bounded lo hi r) (n : Nat) :
    (bounce lo hi)^[n] r = r ↔ 2 * (hi - lo + 1) ∣ n := by
  have samePlace : (bounce lo hi)^[n] r = r ↔ place lo hi r + n ≡ place lo hi r + 0 [MOD 2 * (hi - lo + 1)] := by
    rw [Nat.ModEq, ← place_iterate_bounce h, Nat.add_zero, Nat.mod_eq_of_lt (place_lt h)]
    exact ⟨congrArg _, place_injOn (iterate_bounce_bounded h n) h⟩
  rw [samePlace, ← Nat.modEq_zero_iff_dvd]
  exact ⟨Nat.ModEq.add_left_cancel' _, Nat.ModEq.add_left _⟩

end

/-! ## The period of the two advances -/

/-- The ramp value and direction of a block. -/
def State.ramp (s : State) : Nat × Dir :=
  (s.blk.rampV, s.blk.rampDir)

def State.withRamp (s : State) (r : Nat × Dir) : State :=
  s.setBlk (s.blk.setRamp r.1 r.2)

theorem withRamp_ramp (s : State) : s.withRamp s.ramp = s := rfl

/-- Where an operation moves the ramp one place on its triangle and changes nothing else, `n` times it moves it `n`
places. -/
theorem execTimes_bounce {i : Instr} {s : State} {lo hi : Nat}
    (advance : ∀ r, Bounded lo hi r → exec i (s.withRamp r) = .next (s.withRamp (bounce lo hi r))) (n : Nat) :
    ∀ {r : Nat × Dir}, Bounded lo hi r → execTimes i n (s.withRamp r) = .next (s.withRamp ((bounce lo hi)^[n] r)) := by
  induction n with
  | zero => exact fun _ => rfl
  | succ n ih =>
    intro r hr
    simp only [execTimes, advance r hr]
    exact ih (bounce_bounded hr)

/-- Such an operation returns the state after twice the number of values, and no sooner. -/
theorem execTimes_period {i : Instr} {s : State} {lo hi : Nat} (bounded : Bounded lo hi s.ramp)
    (advance : ∀ r, Bounded lo hi r → exec i (s.withRamp r) = .next (s.withRamp (bounce lo hi r))) :
    execTimes i (2 * (hi - lo + 1)) s = .next s ∧
      ∀ n, 0 < n → n < 2 * (hi - lo + 1) → execTimes i n s ≠ .next s := by
  have times (n : Nat) : execTimes i n s = .next (s.withRamp ((bounce lo hi)^[n] s.ramp)) :=
    execTimes_bounce advance n bounded
  constructor
  · rw [times, (iterate_bounce_eq_self_iff bounded _).2 dvd_rfl, withRamp_ramp]
  · intro n pos lt returned
    rw [times, Host.Outcome.next.injEq] at returned
    have same : (bounce lo hi)^[n] s.ramp = s.ramp := congrArg State.ramp returned
    exact Nat.not_dvd_of_pos_of_lt pos lt ((iterate_bounce_eq_self_iff bounded n).1 same)

/-- With a step of 1, inside bounds that the register holds, RAMP_ADV_V1 is an advance on the triangle. -/
theorem rampNextV1_eq_bounce {c : Config} (hstep : c.step = 1) (hfit : c.v1Max ≤ c.regMax) {r : Nat × Dir}
    (h : Bounded c.v1Min c.v1Max r) : rampNextV1 c r.1 r.2 = bounce c.v1Min c.v1Max r := by
  obtain ⟨v, d⟩ := r
  obtain ⟨lower, upper⟩ : c.v1Min ≤ v ∧ v ≤ c.v1Max := h
  have fits {n : Nat} (hn : n ≤ c.v1Max) : c.store n = n := store_eq (hn.trans hfit)
  cases d with
  | inc =>
    by_cases room : v < c.v1Max
    · rw [bounce, if_pos room, rampNextV1_inc (by omega), hstep, fits room]
    · rw [bounce, if_neg room, rampNextV1_inc_over (by omega), fits le_rfl]
  | dec =>
    by_cases room : c.v1Min < v
    · rw [bounce, if_pos room, rampNextV1_dec (by omega), hstep, fits (by omega)]
    · rw [bounce, if_neg room, rampNextV1_dec_under (by omega), fits (lower.trans upper)]

theorem rampNextV2_eq_bounce {c : Config} (hstep : c.step = 1) (hfit : c.v2Ub ≤ c.regMax) {r : Nat × Dir}
    (h : Bounded c.v2Lb c.v2Ub r) : rampNextV2 c r.1 r.2 = bounce c.v2Lb c.v2Ub r := by
  obtain ⟨v, d⟩ := r
  have range : c.inV2Range v := h
  have ⟨lower, upper⟩ := range
  have fits {n : Nat} (hn : n ≤ c.v2Ub) : c.store n = n := store_eq (hn.trans hfit)
  cases d with
  | inc =>
    by_cases room : v < c.v2Ub
    · rw [bounce, if_pos room, rampNextV2_inc range (by omega), hstep, fits room]
    · rw [bounce, if_neg room, rampNextV2_inc_over range (by omega), fits le_rfl]
  | dec =>
    by_cases room : c.v2Lb < v
    · rw [bounce, if_pos room, rampNextV2_dec range (by omega), hstep, fits (by omega)]
    · rw [bounce, if_neg room, rampNextV2_dec_under range (by omega), fits (lower.trans upper)]

theorem exec_rampAdvV1_withRamp {s : State} (hs : s.blk.halted = false) (r : Nat × Dir) :
    exec .rampAdvV1 (s.withRamp r) = .next (s.withRamp (rampNextV1 s.cfg r.1 r.2)) :=
  exec_running .rampAdvV1 (s := s.withRamp r) hs

theorem exec_rampAdvV2_withRamp {s : State} (hs : s.blk.halted = false) (r : Nat × Dir) :
    exec .rampAdvV2 (s.withRamp r) = .next (s.withRamp (rampNextV2 s.cfg r.1 r.2)) :=
  exec_running .rampAdvV2 (s := s.withRamp r) hs

/-- The variant 2 bounds of an admitted configuration hold DEPTH + 1 values. -/
theorem v2Ub_sub_v2Lb {c : Config} (hw : c.wf = true) : c.v2Ub - c.v2Lb = c.depth := by
  obtain ⟨-, ⟨hdepth, -⟩, -⟩ := (wf_iff c).1 hw
  exact Nat.sub_sub_self hdepth

/-- Settles O30: both advances move the ramp on a triangle, one place at a time. -/
theorem rampPeriodIsTwiceItsRange : Obligations.RampPeriodIsTwiceItsRange := by
  refine ⟨⟨rfl, rfl⟩, ?v1, ?v2⟩
  case v1 =>
    intro s hfit hstep hs lower upper
    refine execTimes_period ⟨lower, upper⟩ fun r hr => ?_
    rw [exec_rampAdvV1_withRamp hs, rampNextV1_eq_bounce hstep hfit hr]
  case v2 =>
    intro s hw hfit hstep hs range
    rw [← v2Ub_sub_v2Lb hw]
    refine execTimes_period range fun r hr => ?_
    rw [exec_rampAdvV2_withRamp hs, rampNextV2_eq_bounce hstep hfit hr]

end Sys2Proof.Machine
end

section
/-! PROOF. The duties of the MUX operations of variant 1 (43_output_mapper.md R160 to R162), and what stands in the duty
registers, at the PWM pins and before the carrier (10_state.md R28, 60_exceptions.md R203, 20_memory.md R59). -/

namespace Sys2Proof.Machine

/-! ## The MUX operations alone -/

theorem decode_mux_v1 {x : Ctx} (hv : x.variant = .v1) {m : Mode} (hm : x.mode = m) :
    decode x (.phase3 0b101) = .ok (muxOp .v1 m) := by
  rw [decode_mux, hv, hm]

theorem store_source {n : Nat} (h : n ≤ 255) : Config.v1.store n = n :=
  store_eq (h.trans_eq (regMax_eight rfl).symm)

theorem startOnlyDuty2_source {r : Nat} (h : r ≤ 255) : startOnlyDuty2 Config.v1 r = 125 + r / 2 :=
  store_source (base_add_div_le (base := 125) (d := 2) (by decide) h)

theorem onDuty_source {r : Nat} (h : r ≤ 255) : onDuty Config.v1 r = 4 + r / 10 :=
  store_source (base_add_div_le (base := 4) (d := 10) (by decide) h)

/-- Settles O33: the two stored duties, and with the source values the numbers that they are. -/
theorem startOnlyDuties : Obligations.StartOnlyDuties := by
  refine ⟨fun _ hv hm => decode_mux_v1 hv hm, fun s hs => ⟨_, _,
    (exec_running .muxV1StartOnly hs).trans (congrArg _ (writeDuties_eq _ _ s)), store_holds _ _, store_holds _ _, ?_⟩⟩
  intro hc hr
  rw [hc] at hr ⊢
  have byte : s.blk.rampV ≤ 255 := hr
  rw [startOnlyDuty2_source byte]
  exact ⟨store_source (n := 0) (by decide), rfl, by omega, by omega⟩

/-- Settles O34: the stored duty of both channels, and with the source values the number that it is. -/
theorem onDuties : Obligations.OnDuties := by
  refine ⟨fun _ hv hm => decode_mux_v1 hv hm, fun s hs => ⟨_,
    (exec_running .muxV1On hs).trans (congrArg _ (writeDuties_eq _ _ s)), store_holds _ _, ?_⟩⟩
  intro hc hr
  rw [hc] at hr ⊢
  have byte : s.blk.rampV ≤ 255 := hr
  rw [onDuty_source byte]
  exact ⟨rfl, by omega, by omega⟩

/-- Settles O35: the stored duty of both channels, and the advance of phase 6 in a tick, which no mode stops. -/
theorem offDuties : Obligations.OffDuties := by
  refine ⟨fun _ hv hm => decode_mux_v1 hv hm, fun s hs => ⟨_,
    (exec_running .muxV1Off hs).trans (congrArg _ (writeDuties_eq _ _ s)), store_holds _ _, ?source⟩, ?inTick⟩
  case source =>
    intro hc
    rw [hc]
    exact store_source (n := 4) (by decide)
  case inTick =>
    intro s hs hf hv _
    have advance := exec_rampOp hs
    rw [hv] at advance
    exact ⟨_, _, exec_tick_running hs hf, advance, phases_ramp_eq_rampPhase rfl rfl rfl⟩

/-! ## A written register stays written -/

theorem writeDuties_isSome (c : Chan) (d1 d2 : Nat) (s : State) : ((writeDuties d1 d2 s).blk.duty c).isSome := by
  cases c <;> rfl

theorem phases_duty_isSome (c : Chan) (s : State) : ((phases s).blk.duty c).isSome := by
  rw [phases_eq]
  cases c <;> rfl

theorem SameDuties.duty {s t : State} (h : SameDuties s t) (c : Chan) : t.blk.duty c = s.blk.duty c := by
  obtain ⟨duty1, duty2, -⟩ := h
  cases c
  · exact duty1
  · exact duty2

theorem tick_duty_isSome {c : Chan} {s : State} (h : (s.blk.duty c).isSome) : ((tick s).blk.duty c).isSome := by
  rcases tick_cases s with ⟨-, e⟩ | ⟨-, -, e⟩ | ⟨-, -, e⟩ <;> rw [e]
  · exact h
  · cases c <;> exact h
  · exact phases_duty_isSome c _

/-- No effect unwrites a duty register: those that write it write a value (10_state.md R28). -/
theorem effect_duty_isSome (c : Chan) (i : Instr) (s : State) (h : (s.blk.duty c).isSome) :
    ((effect i s).blk.duty c).isSome := by
  by_cases writer : writesDuties i
  · rcases writer with rfl | rfl | rfl | rfl | rfl
    · exact writeDuties_isSome c _ _ s
    · exact writeDuties_isSome c _ _ s
    · exact writeDuties_isSome c _ _ s
    · exact writeDuties_isSome c _ _ s
    · exact tick_duty_isSome h
  · rwa [(effect_sameDuties writer s).duty]

/-- Settles O38: what every effect keeps, every step keeps that is not a reset. -/
theorem writtenDutyStaysWritten : Obligations.WrittenDutyStaysWritten := fun _ _ c hr h e =>
  step_keeps (P := fun b => (b.duty c).isSome) (effect_duty_isSome c) hr h e

/-! ## The pins -/

theorem dutyPort_of_written {s : State} {c : Chan} {v : Nat} (h : s.blk.duty c = some v) (k : Nat) :
    s.dutyPort c k = v := by
  rw [State.dutyPort, h]

theorem pwmPins_running {s : State} (h : s.blk.halted = false) (c : Chan) (k : Nat) :
    s.pwmPins c k = s.dutyPort c k :=
  if_neg (Bool.eq_false_iff.1 h)

/-- A running tick leaves in each register what it wrote to its channel. -/
theorem phases_duty_of_mem_pwm {s : State} {w : PwmWrite} (h : w ∈ (phases s.clearOutputs).pwm) :
    (phases s.clearOutputs).blk.duty w.channel = some w.value := by
  rw [phases_clearOutputs_pwm, List.mem_pair] at h
  rcases h with rfl | rfl
  · exact phases_duty1 s.clearOutputs
  · exact phases_duty2 s.clearOutputs

/-- Settles O39: the pin is the port while the block runs, and after a tick the port is what the tick wrote. -/
theorem pwmPinsShowTheDuty : Obligations.PwmPinsShowTheDuty := by
  refine ⟨fun _ c k h => pwmPins_running h c k, fun _ _ _ h => if_pos h, fun s hs hf => ⟨_, exec_tick_running hs hf, ?_⟩⟩
  intro w hw k
  have running : (phases s.clearOutputs).blk.halted = false := (phases_halted _).trans hs
  rw [pwmPins_running running, dutyPort_of_written (phases_duty_of_mem_pwm hw)]

/-! ## The carrier -/

theorem dutyPort_setBlk {s u : State} {b : Block} {c : Chan} (hcfg : u.cfg = s.cfg) (hduty : b.duty c = u.blk.duty c)
    (k : Nat) : (s.setBlk b).dutyPort c k = u.dutyPort c k := by
  simp only [State.dutyPort, State.setBlk_blk, State.setBlk_cfg, hcfg, hduty]

/-- After any number of writes, one to each channel, a register is as before them or as after them. -/
theorem applyWrites_take_duty (b : Block) (d1 d2 n : Nat) (c : Chan) :
    (applyWrites (List.take n [⟨.one, d1⟩, ⟨.two, d2⟩]) b).duty c = b.duty c ∨
      (applyWrites (List.take n [⟨.one, d1⟩, ⟨.two, d2⟩]) b).duty c = (applyWrites [⟨.one, d1⟩, ⟨.two, d2⟩] b).duty c := by
  match n, c with
  | 0, _ => exact .inl rfl
  | 1, .one => exact .inr rfl
  | 1, .two => exact .inl rfl
  | _ + 2, _ => exact .inr (by rw [List.take_succ_cons, List.take_succ_cons, List.take_nil])

/-- All writes of a running tick give the registers that the tick leaves. -/
theorem applyWrites_phases_pwm (s : State) (c : Chan) :
    (applyWrites (phases s.clearOutputs).pwm s.blk).duty c = (phases s.clearOutputs).blk.duty c := by
  rw [phases_clearOutputs_pwm]
  cases c
  · exact (phases_duty1 s.clearOutputs).symm
  · exact (phases_duty2 s.clearOutputs).symm

/-- Settles O41: a read sees the register after the first of the writes, and each register is written once. -/
theorem carrierSeesOldOrNewDuty : Obligations.CarrierSeesOldOrNewDuty := by
  refine fun s hs hf => ⟨_, exec_tick_running hs hf, fun n k c => ?_, applyWrites_phases_pwm s⟩
  have all := applyWrites_phases_pwm s c
  rw [phases_clearOutputs_pwm] at all ⊢
  rcases applyWrites_take_duty s.blk _ _ n c with old | new
  · exact .inl (dutyPort_setBlk rfl old k)
  · exact .inr (dutyPort_setBlk (phases_cfg s.clearOutputs) (new.trans all) k)

end Sys2Proof.Machine
end

section
/-! PROOF. What each operation can write (10_state.md R22 to R29), what a tick leaves (44_main_loop.md R180), and that a
tick and the observation of a run depend on nothing but the configuration, the block and the inputs (R187). -/

namespace Sys2Proof.Machine

/-- What an operation other than TICK can make of a state: nothing, or new values in the parts named for it. -/
inductive Writes (s : State) : Instr → State → Prop
  | nothing (i : Instr) : Writes s i s
  | samples (p1 p2 : Level) : Writes s .sample (s.setSamples p1 p2)
  | debouncers (h1 h2 : Hist) (l1 l2 : Level) (e1 e2 : Edge) : Writes s .debUpdate
      { s with blk := (s.blk.setDeb .one h1 l1).setDeb .two h2 l2, edge1 := e1, edge2 := e2 }
  | tx {i : Instr} (hi : i = .rptBtn1 ∨ i = .rptBtn2) (bs : List Byte) : Writes s i (s.txEmit bs)
  | mode {i : Instr} (hi : i = .cmdS ∨ i = .cmdN ∨ i = .cmdB) (m : Mode) : Writes s i (s.rxTaken.setBlk (s.blk.setMode m))
  | rx (b : Byte) : Writes s (.cmdOther b) s.rxTaken
  | duties {i : Instr} (hi : i = .muxV1StartOnly ∨ i = .muxV1On ∨ i = .muxV1Off ∨ i = .muxV2) (d1 d2 : Nat) :
      Writes s i ((s.pwmWrite .one d1).pwmWrite .two d2)
  | ramp {i : Instr} (hi : i = .rampAdvV1 ∨ i = .rampAdvV2) (v : Nat) (d : Dir) : Writes s i (s.setBlk (s.blk.setRamp v d))
  | halted : Writes s .halt s.enterHalt

theorem report_writes {op : Instr} (hop : op = .rptBtn1 ∨ op = .rptBtn2) (i : Chan) (tag : Byte) (s : State) :
    Writes s op (report i tag s) := by
  unfold report
  split
  · exact .tx hop _
  · exact .nothing _

theorem command_writes {op : Instr} (hop : op = .cmdS ∨ op = .cmdN ∨ op = .cmdB) (b : Byte) (m : Mode) (s : State) :
    Writes s op (command b m s) := by
  rcases command_cases b m s with e | e <;> rw [e]
  · exact .nothing _
  · exact .mode hop m

theorem effect_writes {i : Instr} (h : i ≠ .tick) (s : State) : Writes s i (effect i s) := by
  cases i with
  | sample => exact .samples _ _
  | debUpdate => exact .debouncers _ _ _ _ _ _
  | rptBtn1 | rptBtn2 => exact report_writes (by simp) _ _ s
  | cmdS | cmdN | cmdB => exact command_writes (by simp) _ _ s
  | cmdOther b =>
    rcases cmdOther_cases b s with e | e <;> rw [effect, e]
    · exact .nothing _
    · exact .rx b
  | muxV1StartOnly | muxV1On | muxV1Off | muxV2 => exact .duties (by simp) _ _
  | rampAdvV1 | rampAdvV2 => exact .ramp (by simp) _ _
  | halt =>
    rw [effect, haltOnFatal]
    split
    · exact .halted
    · exact .nothing _
  | rxNone | sleep => exact .nothing _
  | tick => exact absurd rfl h

theorem exec_writes {i : Instr} (h : i ≠ .tick) {s t : State} (e : exec i s = .next t) : Writes s i t := by
  rw [exec_eq] at e
  cases e
  split
  · exact .nothing _
  · exact effect_writes h s

/-- Settles O46: each form of writing changes the parts of its own operations alone. -/
theorem eachRegisterHasItsOwnWriters : Obligations.EachRegisterHasItsOwnWriters := by
  intro i s t e hi
  cases exec_writes hi e with
  | nothing | samples | debouncers | rx | halted => simp
  | tx hi => rcases hi with rfl | rfl <;> simp
  | mode hi => rcases hi with rfl | rfl | rfl <;> simp
  | duties hi => rcases hi with rfl | rfl | rfl | rfl <;> simp
  | ramp hi => rcases hi with rfl | rfl <;> simp

/-! ## The frame of a tick -/

theorem phases_pins (s : State) : (phases s).inp.pin1 = s.inp.pin1 ∧ (phases s).inp.pin2 = s.inp.pin2 ∧
    (phases s).inp.fatal = s.inp.fatal := by
  rw [phases_eq]
  exact ⟨rfl, rfl, rfl⟩

theorem phases_placed (s : State) : (phases s).pending = s.pending ∧ (phases s).draws = s.draws := by
  rw [phases_eq]
  exact ⟨rfl, rfl⟩

/-- Settles O44: the seven phases leave what none of them writes, and phase 4 takes the byte in variant 1. -/
theorem tickCompletesAndKeepsItsFrame : Obligations.TickCompletesAndKeepsItsFrame := by
  refine ⟨fun _ => rfl, fun s hs hf => ⟨_, exec_tick_running hs hf, ?_⟩⟩
  obtain ⟨pin1, pin2, fatal⟩ := phases_pins s.clearOutputs
  obtain ⟨pending, draws⟩ := phases_placed s.clearOutputs
  refine ⟨(phases_halted _).trans hs, phases_sampled .one _, phases_sampled .two _, phases_cfg _, pending, draws, pin1,
    pin2, fatal.trans hf, fun hv => ?_, fun hv => ?_⟩
  · exact (phases_rx _).trans (nextRx_v1 (s := s.clearOutputs) hv)
  · exact (phases_rx _).trans (nextRx_v2 (s := s.clearOutputs) hv)

/-! ## What a tick depends on -/

/-- Two states with one configuration and block whose output ports show the same. -/
structure SameView (s u : State) : Prop where
  cfg : s.cfg = u.cfg
  blk : s.blk = u.blk
  edge1 : s.edge1 = u.edge1
  edge2 : s.edge2 = u.edge2
  tx : s.tx = u.tx
  pwm : s.pwm = u.pwm

theorem SameView.obs {s u : State} (h : SameView s u) : s.obs = u.obs := by
  simp only [State.obs, h.blk, h.edge1, h.edge2, h.tx]

/-- The seven phases read of a state the configuration, the block and the inputs, and append to the outputs. -/
theorem phases_sameView {s u : State} (hcfg : s.cfg = u.cfg) (hblk : s.blk = u.blk) (hinp : s.inp = u.inp)
    (htx : s.tx = u.tx) (hpwm : s.pwm = u.pwm) : SameView (phases s) (phases u) := by
  obtain ⟨cfg, blk, inp, _, _, _, _, tx, pwm, _, _⟩ := s
  obtain ⟨_, _, _, _, _, _, _, _, _, _, _⟩ := u
  obtain rfl : cfg = _ := hcfg
  obtain rfl : blk = _ := hblk
  obtain rfl : inp = _ := hinp
  obtain rfl : tx = _ := htx
  obtain rfl : pwm = _ := hpwm
  rw [phases_eq, phases_eq]
  exact ⟨rfl, rfl, rfl, rfl, rfl, rfl⟩

theorem tick_sameView {s u : State} (hcfg : s.cfg = u.cfg) (hblk : s.blk = u.blk) (hinp : s.inp = u.inp) :
    SameView (tick s) (tick u) := by
  cases h : s.blk.halted with
  | true =>
    rw [tick_halted h, tick_halted (hblk ▸ h)]
    exact ⟨hcfg, hblk, rfl, rfl, rfl, rfl⟩
  | false =>
    cases f : s.inp.fatal with
    | true =>
      rw [tick_fatal h f, tick_fatal (hblk ▸ h) (hinp ▸ f)]
      exact ⟨hcfg, congrArg Block.setHalted hblk, rfl, rfl, rfl, rfl⟩
    | false =>
      rw [tick_running h f, tick_running (hblk ▸ h) (hinp ▸ f)]
      exact phases_sameView hcfg hblk hinp rfl rfl

theorem tick_pending (s : State) : (tick s).pending = s.pending := by
  rcases tick_cases s with ⟨-, e⟩ | ⟨-, -, e⟩ | ⟨-, -, e⟩ <;> rw [e]
  · rfl
  · rfl
  · exact (phases_placed _).1

/-! ## What the observation of a run depends on -/

theorem interrupted_sameView {s u : State} (h : SameView s u) (cut : Cut) :
    SameView (s.interrupted cut) (u.interrupted cut) := by
  obtain ⟨hcfg, -, hedge1, hedge2, htx, hpwm⟩ := h
  constructor <;> simp only [State.interrupted, State.setOutputs_cfg, State.setOutputs_blk, State.setOutputs_edge1,
    State.setOutputs_edge2, State.setOutputs_tx, State.setOutputs_pwm, State.restart_cfg, State.restart_blk, hcfg,
    hedge1, hedge2, htx, hpwm]

/-- One stimulus in two states with one configuration and block leads to states that show the same, and leaves what
is placed after it. -/
theorem stimulate_sameView {s u : State} (hcfg : s.cfg = u.cfg) (hblk : s.blk = u.blk) (x : Stim) :
    ∃ t v, stimulate s x = .next t ∧ stimulate u x = .next v ∧ SameView t v ∧ t.pending = s.pending ∧
      v.pending = u.pending := by
  have ticks (i : Inputs) : SameView (tick (s.setInputs i)) (tick (u.setInputs i)) := tick_sameView hcfg hblk rfl
  cases x with
  | tick i => exact ⟨_, _, rfl, rfl, ticks i, tick_pending _, tick_pending _⟩
  | fatal =>
    refine ⟨_, _, exec_halt_fatal rfl, exec_halt_fatal rfl, ?_, rfl, rfl⟩
    exact ⟨hcfg, congrArg Block.setHalted hblk, rfl, rfl, rfl, rfl⟩
  | rst => exact ⟨_, _, rfl, rfl, ⟨hcfg, congrArg Block.reset hcfg, rfl, rfl, rfl, rfl⟩, rfl, rfl⟩
  | rstDuring i cut =>
    exact ⟨_, _, rfl, rfl, interrupted_sameView (ticks i) cut, tick_pending _, tick_pending _⟩

theorem observation_of_next {n : Nat} {s t : State} (e : step s = .next t) :
    observation (n + 1) s = (if s.nextWork.isTick then [t.obs] else []) ++ observation n t := by
  simp only [observation, e]

theorem observation_of_refused {n : Nat} {s : State} {r : Refusal} (e : step s = .refused r) :
    observation (n + 1) s = [] := by
  simp only [observation, e]

theorem nextWork_of_placed {s : State} {w : Work} {rest : List Work} (hp : s.pending = w :: rest) :
    s.nextWork = w := by
  rw [State.nextWork, hp, List.headD_cons]

/-- The observation of placed stimuli is decided by the configuration and the block. -/
theorem observation_congr : ∀ {xs : List Stim} {s u : State}, s.cfg = u.cfg → s.blk = u.blk →
    s.pending = xs.map .stim → u.pending = xs.map .stim → observation xs.length s = observation xs.length u
  | [], _, _, _, _, _, _ => rfl
  | x :: xs, s, u, hcfg, hblk, hs, hu => by
    by_cases hw : s.cfg.wf = true
    · obtain ⟨t, v, et, ev, view, pt, pv⟩ := stimulate_sameView (s := s.setPending (xs.map .stim))
        (u := u.setPending (xs.map .stim)) hcfg hblk x
      rw [List.length_cons, observation_of_next ((step_stim hw hs).trans et),
        observation_of_next ((step_stim (hcfg ▸ hw) hu).trans ev), nextWork_of_placed hs, nextWork_of_placed hu, view.obs,
        observation_congr view.cfg view.blk pt pv]
    · rw [List.length_cons, observation_of_refused ((step_eq_badConfig_iff s).2 hw),
        observation_of_refused ((step_eq_badConfig_iff u).2 (hcfg ▸ hw))]

/-! ## The observation of placed ticks -/

/-- What the states after each tick of a run show. -/
def tickObs : State → List Inputs → List Obs
  | _, [] => []
  | s, i :: is => (tick (s.setInputs i)).obs :: tickObs (tick (s.setInputs i)) is

theorem length_tickObs : ∀ (s : State) (is : List Inputs), (tickObs s is).length = is.length
  | _, [] => rfl
  | _, _ :: is => congrArg Nat.succ (length_tickObs _ is)

theorem tickObs_getElem? : ∀ (s : State) (is : List Inputs) (n : Nat), n < is.length →
    (tickObs s is)[n]? = some (afterTicks s (is.take (n + 1))).obs
  | _, [], _, hn => absurd hn (Nat.not_lt_zero _)
  | _, _ :: _, 0, _ => rfl
  | _, _ :: is, n + 1, hn => tickObs_getElem? _ is n (Nat.lt_of_succ_lt_succ hn)

theorem observation_ticks : ∀ {is : List Inputs} {s u : State}, s.cfg.wf = true → s.cfg = u.cfg → s.blk = u.blk →
    u.pending = (is.map .tick).map .stim → observation is.length u = tickObs s is
  | [], _, _, _, _, _, _ => rfl
  | i :: is, s, u, hw, hcfg, hblk, hu => by
    have view : SameView (tick (s.setInputs i)) (tick ((u.setPending ((is.map .tick).map .stim)).setInputs i)) :=
      tick_sameView hcfg hblk rfl
    rw [List.length_cons, observation_of_next (step_stim (hcfg ▸ hw) hu), nextWork_of_placed hu, tickObs, view.obs,
      observation_ticks (s := tick (s.setInputs i)) (by rw [tick_cfg]; exact hw) view.cfg view.blk (tick_pending _)]
    rfl

/-- Settles O47: ticks with one configuration, block and inputs show the same, so do runs of placed stimuli, and each
placed tick shows its own state. -/
theorem tickReadsOnlyBlockAndInputs : Obligations.TickReadsOnlyBlockAndInputs := by
  refine ⟨?tick, ?run, ?entries⟩
  case tick =>
    intro s u hcfg hblk hinp
    have view := tick_sameView hcfg hblk hinp
    exact ⟨_, _, rfl, rfl, view.blk, view.obs, view.pwm⟩
  case run => exact fun _ _ _ hcfg hblk => observation_congr hcfg hblk rfl rfl
  case entries =>
    intro s is hw
    have entries := observation_ticks (s := s) (u := s.placing (is.map .tick)) hw rfl rfl rfl
    rw [entries]
    exact ⟨length_tickObs s is, fun n hn => ⟨_, runTicks_eq _ s, tickObs_getElem? s is n hn⟩⟩

end Sys2Proof.Machine
end
